-- ==== Sys2Proof/Word.lean ====
section
/-! DEFINITION. The words of the control link and of the track position. -/

namespace Sys2Proof

/-- One byte of the control link (R189). -/
abbrev Byte := BitVec 8

/-- A two-byte field of the control link (R199). -/
abbrev Half := BitVec 16

/-- A track position: an unsigned 32-bit count of millimetres that wraps (R1). -/
abbrev Position := BitVec 32

end Sys2Proof
end

