-- ==== Sys2Proof/Syntax.lean ====
section
/-! DEFINITION. The commands of the block: one constructor of Instr for each row of the table of operations and
events. A request carries its fields as the link carries them (R199), so that every value the host can send has a
term; an event of the wiring carries what the wiring delivers. -/

namespace Sys2Proof

/-- The two wheel tracks (00_scope.md, Corners and tracks). -/
inductive Track where
  | left
  | right
  deriving DecidableEq, Repr, Inhabited

/-- The four corners, in the order in which corners are taken in turn (00_scope.md, Corners and tracks). -/
inductive Corner where
  | fl
  | fr
  | rl
  | rr
  deriving DecidableEq, Repr, Inhabited

/-- What brings a full reset about (R174). -/
inductive ResetCause where
  /-- The reset input is asserted, and stays so until RESET_RELEASE. -/
  | inputAsserted
  /-- Power-up; the reset input keeps the level it stands at. -/
  | powerUp
  deriving DecidableEq, Repr, Inhabited

/-- What LIF has collected between the assertion and the release of select (R189, R190): whole bytes, and the bits
after them that make no whole byte. -/
structure RawFrame where
  bytes : List Byte
  strayBits : Fin 8 := 0
  deriving DecidableEq, Repr, Inhabited

/-- The body of PREVIEW as received (R199, Segment record). The sample count is the length of the samples list,
since R190 takes no frame whose sample count differs from its body length less 19. -/
structure SegmentRecord where
  tag : Half
  track : Byte
  kind : Byte
  start : Position
  length : Half
  amplitude : Byte
  confidence : Byte
  options : Byte
  overrideFront : Half
  overrideRear : Half
  roughIntensity : Byte
  samples : List Byte
  deriving DecidableEq, Repr, Inhabited

/-- The commands. The requests (identify to fetch) stand for a frame of that kind with the right sync value and CRC,
taken at the release of select. -/
inductive Instr where
  /-- SELECT_ASSERTION (R189). -/
  | selectAssertion
  /-- MALFORMED_FRAME (R190): the release of select after these bits. -/
  | malformedFrame (frame : RawFrame)
  /-- NO_ROOM (R190): the release of select after these bits. -/
  | noRoom (frame : RawFrame)
  /-- IDENTIFY (R187). -/
  | identify
  /-- SET_GROUP (R181): the group number and the bytes of the body from offset 1 on. -/
  | setGroup (group : Byte) (contents : List Byte)
  /-- READ_GROUP (R183). -/
  | readGroup (group : Byte)
  /-- SET_LOCKS (R185): the group set. -/
  | setLocks (locks : Byte)
  /-- WRITE_VARIANT (R186): the eight code bytes, first byte most significant, and the class in mA. -/
  | writeVariant (code : BitVec 64) (capClass : Half)
  /-- START (R170). -/
  | start
  /-- STANDBY (R172). -/
  | standby
  /-- RESTART (R173). -/
  | restart
  /-- MOTION (R7). -/
  | motion (direction : Byte)
  /-- PREVIEW (R25). -/
  | preview (record : SegmentRecord)
  /-- WITHDRAW (R37). -/
  | withdraw (tag : Half)
  /-- SELECT_PROFILE (R80). -/
  | selectProfile (target : Byte)
  /-- TRIM_AHEAD (R142). -/
  | trimAhead (corner : Byte) (count : Byte)
  /-- RECHECK (R164). -/
  | recheck (corner : Byte)
  /-- SET_REPORTING (R115): the report enable set. -/
  | setReporting (corner : Byte) (bits : Byte)
  /-- CLEAR_CONDITIONS (R122): the accrued bit set. -/
  | clearConditions (corner : Byte) (bits : Byte)
  /-- READ_ORIGIN (R121). -/
  | readOrigin (corner : Byte)
  /-- STATUS (R198). -/
  | status
  /-- FETCH (R194). -/
  | fetch (body : List Byte)
  /-- FULL_RESET (R174). -/
  | fullReset (cause : ResetCause)
  /-- RESET_RELEASE (R174). -/
  | resetRelease
  /-- FRONT_PULSE_ARRIVAL (R4): the arrival time in microseconds. -/
  | frontPulseArrival (track : Track) (time : Nat)
  /-- REAR_PULSE_ARRIVAL (R12). -/
  | rearPulseArrival (track : Track)
  /-- STANDSTILL (R6). -/
  | standstill (track : Track)
  /-- UPDATE (R90): the raw count of the ride-height sample. -/
  | update (corner : Corner) (raw : Int)
  /-- CURRENT_SAMPLE (R147): the coil current in mA. -/
  | currentSample (corner : Corner) (current : Nat)
  /-- TRACKING_TIMER_EXPIRY (R147). -/
  | trackingTimerExpiry (corner : Corner)
  /-- CHECK_COMPLETION (R134): the resistance measured over the check, in 0.01 ohm, 0 to 9,999 (R132). -/
  | checkCompletion (corner : Corner) (resistance : Fin 10000)
  /-- TRIM_COMPLETION (R145): the resistance measured over the trim, in 0.01 ohm, 0 to 9,999 (R132). -/
  | trimCompletion (corner : Corner) (resistance : Fin 10000)
  /-- TRIM_TIMER_EXPIRY (R137). -/
  | trimTimerExpiry (corner : Corner)
  /-- SILENCE_EXPIRY (R195). -/
  | silenceExpiry
  /-- ADMISSION (R193). -/
  | admission
  deriving DecidableEq, Repr, Inhabited

end Sys2Proof
end

