-- ==== Sys2Proof/Machine/Types.lean ====
section
/-! DEFINITION. The names and records of the manual that State is made of: states, modes, groups, reports, replies. -/

namespace Sys2Proof.Machine

/-! ## One of each per track, per corner, per bit -/

/-- One value for each track. -/
structure PerTrack (α : Type) where
  left : α
  right : α
  deriving DecidableEq, Repr, Inhabited

/-- One value for each corner. -/
structure PerCorner (α : Type) where
  fl : α
  fr : α
  rl : α
  rr : α
  deriving DecidableEq, Repr, Inhabited

/-- The role of a corner on its track (00_scope.md, Corners and tracks). -/
inductive Role where
  | front
  | rear
  deriving DecidableEq, Repr, Inhabited

/-- The seven kinds of segment (R18). -/
inductive Kind where
  | smooth
  | bump
  | pothole
  | stepUp
  | stepDown
  | rough
  | unknown
  deriving DecidableEq, Repr, Inhabited

/-- One value for each kind of segment. -/
structure PerKind (α : Type) where
  smooth : α
  bump : α
  pothole : α
  stepUp : α
  stepDown : α
  rough : α
  unknown : α
  deriving DecidableEq, Repr, Inhabited

/-- The five accrued bits (R113), in the order of their codes (R199). -/
inductive AccruedBit where
  | limit
  | gap
  | sense
  | holdup
  | unmet
  deriving DecidableEq, Repr, Inhabited

/-- One value for each accrued bit. -/
structure PerBit (α : Type) where
  limit : α
  gap : α
  sense : α
  holdup : α
  unmet : α
  deriving DecidableEq, Repr, Inhabited

/-- The five configuration groups, numbers 0 to 4 (10_configuration_groups.md). -/
inductive GroupId where
  | valveMaps
  | profileA
  | profileB
  | geometry
  | limits
  deriving DecidableEq, Repr, Inhabited

/-- One value for each configuration group. -/
structure PerGroup (α : Type) where
  valveMaps : α
  profileA : α
  profileB : α
  geometry : α
  limits : α
  deriving DecidableEq, Repr, Inhabited

/-! ## Modes and states (00_scope.md, Modes and states at a glance) -/

/-- Part mode (R169). -/
inductive PartMode where
  | config
  | starting
  | run
  | safe
  | standby
  deriving DecidableEq, Repr, Inhabited

/-- Preview state (R38). -/
inductive PreviewState where
  | suspended
  | active
  deriving DecidableEq, Repr, Inhabited

/-- State of a held slot (R20). A FREE slot is a place that no list holds. -/
inductive SlotState where
  | pending
  | frontLead
  | frontOn
  | between
  | rearLead
  | rearOn
  | spent
  deriving DecidableEq, Repr, Inhabited

/-- Lock state of an odometer (R9). -/
inductive LockState where
  | unlocked
  | acquiring
  | locked
  deriving DecidableEq, Repr, Inhabited

/-- Direction (R7). -/
inductive Direction where
  | forward
  | reverse
  | unknown
  deriving DecidableEq, Repr, Inhabited

/-- Sensor state (R93, R94). -/
inductive SensorState where
  | valid
  | lost
  deriving DecidableEq, Repr, Inhabited

/-- Driver state (R125). -/
inductive DriverState where
  | off
  | checking
  | armed
  | drive
  | trim
  | hold
  | released
  | faulted
  deriving DecidableEq, Repr, Inhabited

/-- The two ride profiles (R72). -/
inductive ProfileName where
  | a
  | b
  deriving DecidableEq, Repr, Inhabited

/-- A timer is stopped, or runs and expires at the limit it was started with, in ms. Its elapsed time is not held:
the expiry is a command of the block (assumption log 2). -/
inductive Timer where
  | stopped
  | running (limit : Nat)
  deriving DecidableEq, Repr, Inhabited

/-- Outcome of a frame (R190). -/
inductive FrameOutcome where
  | accepted
  | crcError
  | malformed
  | noRoom
  deriving DecidableEq, Repr, Inhabited

/-- Outcome of a request (R198, Reply outcome codes). -/
inductive ReplyCode where
  | ok
  | mode
  | order
  | range
  | locked
  | late
  | suspended
  | state
  | full
  | dupTag
  | unknownTag
  | busy
  | written
  | noVariant
  | unlockedTrack
  | retries
  deriving DecidableEq, Repr, Inhabited

/-! ## Configuration groups -/

/-- Combine mode of a row (R73). -/
inductive CombineMode where
  | replace
  | max
  | min
  deriving DecidableEq, Repr, Inhabited

/-- Substitution of a corner (R96, R179). -/
inductive Substitution where
  | none
  | axlePartner
  deriving DecidableEq, Repr, Inhabited

/-- One row of the response table (R73). -/
structure ResponseRow where
  frontBase : Nat
  rearBase : Nat
  slope : Nat
  combine : CombineMode
  leadExtension : Nat
  trail : Nat
  roughStep : Nat
  deriving DecidableEq, Repr, Inhabited

/-- A ride profile (R72). -/
structure Profile where
  floor : Nat
  ceiling : Nat
  gain : Nat
  rateLimit : Nat
  responseTime : Nat
  threshold : Nat
  rows : PerKind ResponseRow
  deriving DecidableEq, Repr, Inhabited

/-- Pulse lengths of a track, in micrometres (R179). -/
structure PulseLengths where
  front : Nat
  rear : Nat
  deriving DecidableEq, Repr, Inhabited

/-- A corner's entry in group 3 (R179). -/
structure CornerGeometry where
  low : Int
  high : Int
  scale : Nat
  substitution : Substitution
  deriving DecidableEq, Repr, Inhabited

/-- Group 3, GEOMETRY (R179). -/
structure Geometry where
  wheelbase : Nat
  pulses : PerTrack PulseLengths
  lockCount : Nat
  slipWindow : Nat
  slipThreshold : Nat
  corners : PerCorner CornerGeometry
  separateFront : Bool
  separateRear : Bool
  deriving DecidableEq, Repr, Inhabited

/-- Group 4, LIMITS (R180). -/
structure Limits where
  warm : Nat
  hot : Nat
  overcurrent : Nat
  silenceTimeout : Nat
  trimInterval : Nat
  trackingBand : Nat
  trackingWindow : Nat
  deriving DecidableEq, Repr, Inhabited

/-- A point of a map: a demand and a coil current in mA (R127). -/
structure MapPoint where
  demand : Nat
  current : Nat
  deriving DecidableEq, Repr, Inhabited

/-- A valve map (R127). -/
structure ValveMap where
  p1 : MapPoint
  p2 : MapPoint
  p3 : MapPoint
  p4 : MapPoint
  p5 : MapPoint
  p6 : MapPoint
  p7 : MapPoint
  p8 : MapPoint
  p9 : MapPoint
  holdCurrent : Nat
  coldResistance : Nat
  shortLimit : Nat
  openLimit : Nat
  deriving DecidableEq, Repr, Inhabited

/-- The maps of one axle: one for both corners where the separate-maps flag is clear, one each where it is set
(R127, R178). -/
inductive AxleMaps where
  | shared (map : ValveMap)
  | separate (left : ValveMap) (right : ValveMap)
  deriving DecidableEq, Repr, Inhabited

/-- Group 0, VALVE_MAPS (R178). -/
structure ValveMaps where
  front : AxleMaps
  rear : AxleMaps
  deriving DecidableEq, Repr, Inhabited

/-- The contents of one configuration group. -/
inductive GroupContents where
  | valveMaps (maps : ValveMaps)
  | profile (profile : Profile)
  | geometry (geometry : Geometry)
  | limits (limits : Limits)
  deriving DecidableEq, Repr, Inhabited

/-- The variant record when WRITTEN (R186). -/
structure Variant where
  code : BitVec 64
  cap : Nat
  deriving DecidableEq, Repr, Inhabited

/-! ## Segments and slots -/

/-- An override: a front demand and a rear demand (R19). -/
structure Override where
  front : Nat
  rear : Nat
  deriving DecidableEq, Repr, Inhabited

/-- A segment whose fields all lie in their ranges (R18, R28). -/
structure Segment where
  tag : Half
  track : Track
  kind : Kind
  start : Position
  length : Nat
  amplitude : Int
  confidence : Nat
  report : Bool
  override : Option Override
  roughIntensity : Option Nat
  samples : List Int
  deriving DecidableEq, Repr, Inhabited

/-- What a slot holds for one role (R20): the frozen lead (R52), the measurement record (R61, R62), the seen mark
(R60) and the MISSED flag (R63). -/
structure RoleRecord where
  frozenLead : Option Nat
  entryDemand : Option Nat
  peakVelocity : Option Nat
  heightMin : Option Int
  heightMax : Option Int
  seen : Bool
  missed : Bool
  deriving DecidableEq, Repr, Inhabited

/-- A slot that is not FREE (R20). `serial` names this occupancy of the slot, and `spentPlace` is its place in the
spent order (assumption log 13). -/
structure Slot where
  serial : Nat
  segment : Segment
  state : SlotState
  front : RoleRecord
  rear : RoleRecord
  incomplete : Bool
  overrideUsed : Bool
  spentPlace : Option Nat
  deriving DecidableEq, Repr, Inhabited

/-! ## Corner controllers and drivers -/

/-- A corner's switch reference (R79). -/
inductive SwitchReference where
  | notSet
  | noSegment
  | segment (serial : Nat)
  deriving DecidableEq, Repr, Inhabited

/-- The update condition set (R111). -/
structure UpdateSet where
  sat : Bool := false
  rate : Bool := false
  nopv : Bool := false
  miss : Bool := false
  subst : Bool := false
  slost : Bool := false
  held : Bool := false
  ovrd : Bool := false
  deriving DecidableEq, Repr, Inhabited

/-- The origin record (R119). -/
structure OriginRecord where
  tag : Half
  role : Option Role
  position : Option Position
  previewDemand : Option Nat
  reactiveDemand : Option Nat
  finalDemand : Option Nat
  conditions : Option UpdateSet
  driverState : Option DriverState
  followed : Option ProfileName
  deriving DecidableEq, Repr, Inhabited

/-- The bit state of an accrued bit, with the origin copy that its waiting CONDITION report carries (R114). -/
inductive BitState where
  | clear
  | unreported
  | waiting (origin : OriginRecord)
  | reported
  deriving DecidableEq, Repr, Inhabited

/-- The state a trim was started from (07_valve_drivers.md, The driver's state). -/
inductive TrimOrigin where
  | drive
  | hold
  deriving DecidableEq, Repr, Inhabited

/-- Whether a trim was started for a pull-in (R139). -/
inductive TrimKind where
  | due
  | pullIn
  deriving DecidableEq, Repr, Inhabited

/-- What a driver holds while in TRIM: the trim origin and the trim kind. -/
structure Trim where
  origin : TrimOrigin
  kind : TrimKind
  deriving DecidableEq, Repr, Inhabited

/-- Fault kinds (R154): a shorted coil, an open coil, an overcurrent, a tracking fault. -/
inductive FaultKind where
  | shortCoil
  | openCoil
  | overcurrent
  | tracking
  deriving DecidableEq, Repr, Inhabited

/-- A written fault record (R154). -/
structure FaultRecord where
  kind : FaultKind
  state : DriverState
  mode : PartMode
  measured : Nat
  setpoint : Nat
  position : Position
  deriving DecidableEq, Repr, Inhabited

/-- The result with which a START check ends (R171). -/
inductive CheckResult where
  | armed
  | faulted
  deriving DecidableEq, Repr, Inhabited

/-! ## Reports -/

/-- Cause of a LOCK report (R14). -/
inductive LockCause where
  | acquired
  | reverse
  | directionUnknown
  | slip
  | standby
  deriving DecidableEq, Repr, Inhabited

/-- A LOCK report (R14). -/
structure LockReport where
  track : Track
  state : LockState
  cause : LockCause
  position : Position
  deriving DecidableEq, Repr, Inhabited

/-- Cause of a MODE report (R175). -/
inductive ModeCause where
  | start
  | checksEnded
  | secondFault
  | standbyRequest
  | previewSuspended
  | previewResumed
  deriving DecidableEq, Repr, Inhabited

/-- A MODE report (R175). -/
structure ModeReport where
  cause : ModeCause
  mode : PartMode
  previous : PartMode
  preview : PreviewState
  faultedCount : Nat
  superseded : Nat
  deriving DecidableEq, Repr, Inhabited

/-- A PROFILE report (R85). -/
structure ProfileReport where
  active : ProfileName
  previous : ProfileName
  positions : PerCorner (Option Position)
  deriving DecidableEq, Repr, Inhabited

/-- A FAULT report (R156). -/
structure FaultReport where
  corner : Corner
  record : FaultRecord
  retryCount : Nat
  deriving DecidableEq, Repr, Inhabited

/-- A CONDITION report (R120). -/
structure ConditionReport where
  corner : Corner
  bit : AccruedBit
  origin : OriginRecord
  deriving DecidableEq, Repr, Inhabited

/-- A PASSAGE report (R68). -/
structure PassageReport where
  tag : Half
  track : Track
  kind : Kind
  start : Position
  length : Nat
  incomplete : Bool
  missedFront : Bool
  missedRear : Bool
  overrideUsed : Bool
  frontLead : Option Nat
  rearLead : Option Nat
  frontEntry : Option Nat
  rearEntry : Option Nat
  frontPeak : Option Nat
  frontTravel : Option Nat
  rearPeak : Option Nat
  rearTravel : Option Nat
  deriving DecidableEq, Repr, Inhabited

/-- The six kinds of report (R193, R198). -/
inductive Report where
  | fault (report : FaultReport)
  | mode (report : ModeReport)
  | lock (report : LockReport)
  | profile (report : ProfileReport)
  | condition (report : ConditionReport)
  | passage (report : PassageReport)
  deriving DecidableEq, Repr, Inhabited

/-! ## Replies -/

/-- What STATUS reports of one track (R16, R198). -/
structure TrackStatus where
  position : Position
  speed : Nat
  lock : LockState
  deriving DecidableEq, Repr, Inhabited

/-- What STATUS reports of one corner (R110, R152, R198). -/
structure CornerStatus where
  driver : DriverState
  setpoint : Nat
  lastDemand : Nat
  accrued : PerBit Bool
  balance : Int
  temperature : Option Int
  followed : ProfileName
  sensor : SensorState
  deriving DecidableEq, Repr, Inhabited

/-- The number of slots in each of the eight slot states (R47). -/
structure SlotCounts where
  free : Nat
  pending : Nat
  frontLead : Nat
  frontOn : Nat
  between : Nat
  rearLead : Nat
  rearOn : Nat
  spent : Nat
  deriving DecidableEq, Repr, Inhabited

/-- The contents of the STATUS reply (R198). -/
structure StatusReply where
  mode : PartMode
  preview : PreviewState
  tracks : PerTrack TrackStatus
  corners : PerCorner CornerStatus
  slots : SlotCounts
  queueCount : Nat
  deriving DecidableEq, Repr, Inhabited

/-- Replies, one form for each request that has one (R198, R199). A corner's state is absent where the request names
no corner. -/
inductive Reply where
  | identify (variant : Option Variant)
  | setGroup (code : ReplyCode) (group : Byte) (groupsSet : PerGroup Bool)
  | readGroup (code : ReplyCode) (group : Byte) (isLocked : Bool) (inUse : Bool) (contents : Option GroupContents)
  | setLocks (code : ReplyCode) (locks : PerGroup Bool)
  | writeVariant (code : ReplyCode) (variant : Option Variant) (groupsSet : PerGroup Bool)
  | start (code : ReplyCode) (mode : PartMode) (groupsUnset : PerGroup Bool)
  | standby (code : ReplyCode) (mode : PartMode)
  | restart (mode : PartMode)
  | motion (code : ReplyCode)
  | preview (code : ReplyCode) (tag : Half) (evicted : Half) (superseded : List Half)
  | withdraw (code : ReplyCode) (tag : Half)
  | selectProfile (code : ReplyCode) (target : Byte) (active : ProfileName) (pending : Option ProfileName)
  | trimAhead (code : ReplyCode) (corner : Byte) (count : Byte) (balance : Int) (pullIn : Nat)
  | recheck (code : ReplyCode) (corner : Byte) (driver : Option DriverState) (retryCount : Nat)
  | setReporting (code : ReplyCode) (corner : Byte) (enabled : PerBit Bool)
  | clearConditions (code : ReplyCode) (corner : Byte) (accrued : PerBit Bool)
  | readOrigin (code : ReplyCode) (corner : Byte) (accrued : PerBit Bool) (origin : OriginRecord)
  | status (contents : StatusReply)
  deriving DecidableEq, Repr, Inhabited

/-- A record of the outbound queue: a reply or a report, each a copy fixed when it is placed (R192). -/
inductive Record where
  | reply (reply : Reply)
  | report (report : Report)
  deriving DecidableEq, Repr, Inhabited

/-! ## Requests -/

/-- The request kinds of the catalogue (R198). -/
inductive RequestKind where
  | identify
  | setGroup
  | readGroup
  | setLocks
  | writeVariant
  | start
  | standby
  | restart
  | motion
  | preview
  | withdraw
  | selectProfile
  | trimAhead
  | recheck
  | setReporting
  | clearConditions
  | readOrigin
  | status
  | fetch
  deriving DecidableEq, Repr, Inhabited

/-- What LIF finds in the bits collected (R190, findings 1 to 5): a frame not taken, or a well-formed frame of a
request. -/
inductive FrameFinding where
  | malformed
  | crcError
  | wellFormed (request : Instr)
  deriving DecidableEq, Repr, Inhabited

end Sys2Proof.Machine
end

