-- ==== Sys2Proof/Machine/Bytes.lean ====
section
/-! DEFINITION. Bytes of the link: reading and writing multi-byte fields, most significant byte first, and the CRC
(R199). -/

namespace Sys2Proof.Machine

/-- The byte at an offset of a body; 0 beyond its end, which no reader of a body of a permitted length meets. -/
def byteAt (body : List Byte) (offset : Nat) : Byte := body.getD offset 0

/-- The two-byte field at an offset (R199). -/
def halfAt (body : List Byte) (offset : Nat) : Half := byteAt body offset ++ byteAt body (offset + 1)

/-- The four-byte field at an offset (R199). -/
def wordAt (body : List Byte) (offset : Nat) : Position := halfAt body offset ++ halfAt body (offset + 2)

/-- The eight-byte field at an offset (R199). -/
def codeAt (body : List Byte) (offset : Nat) : BitVec 64 := wordAt body offset ++ wordAt body (offset + 4)

/-- The one-byte number at an offset. -/
def natAt (body : List Byte) (offset : Nat) : Nat := (byteAt body offset).toNat

/-- The two-byte number at an offset. -/
def nat2At (body : List Byte) (offset : Nat) : Nat := (halfAt body offset).toNat

/-- A two-byte field, most significant byte first (R199). -/
def bytesOfHalf (h : Half) : List Byte := [h.extractLsb' 8 8, h.extractLsb' 0 8]

/-- A four-byte field, most significant byte first (R199). -/
def bytesOfWord (w : Position) : List Byte := bytesOfHalf (w.extractLsb' 16 16) ++ bytesOfHalf (w.extractLsb' 0 16)

/-- An eight-byte field, most significant byte first (R199). -/
def bytesOfCode (d : BitVec 64) : List Byte := bytesOfWord (d.extractLsb' 32 32) ++ bytesOfWord (d.extractLsb' 0 32)

/-- A one-byte number. -/
def byteOfNat (n : Nat) : Byte := BitVec.ofNat 8 n

/-- A two-byte number. -/
def bytesOfNat (n : Nat) : List Byte := bytesOfHalf (BitVec.ofNat 16 n)

/-- A one-byte signed number, in two's complement (R199). -/
def byteOfInt (n : Int) : Byte := BitVec.ofInt 8 n

/-- A two-byte signed number, in two's complement (R199). -/
def bytesOfInt (n : Int) : List Byte := bytesOfHalf (BitVec.ofInt 16 n)

/-- A four-byte number. -/
def bytesOfNat4 (n : Nat) : List Byte := bytesOfWord (BitVec.ofNat 32 n)

/-- One bit as a number. -/
def bit (b : Bool) (place : Nat) : Nat := if b then 2 ^ place else 0

/-- One step of the division by x^16 + x^12 + x^5 + 1 (R199). -/
def crcShift (crc : Half) : Half := if crc.msb then (crc <<< 1) ^^^ 0x1021 else crc <<< 1

/-- `n` steps of the division. -/
def crcShifts : Nat → Half → Half
  | 0, crc => crc
  | n + 1, crc => crcShifts n (crcShift crc)

/-- The CRC carried over one more byte, most significant bit first (R199). -/
def crcByte (crc : Half) (b : Byte) : Half := crcShifts 8 (crc ^^^ (b ++ (0 : Byte)))

/-- The CRC over bytes, with initial value FFFF and no final inversion (R199; assumption log 22). -/
def crc16 (bytes : List Byte) : Half := bytes.foldl crcByte 0xFFFF

end Sys2Proof.Machine
end

