-- ==== Sys2Proof/Machine/Frame.lean ====
section
/-! DEFINITION. Host frames: the request catalogue (R198), the frame and request body layouts (R199), the judgement of
the bits collected by findings 1 to 5 of R190, and the frame that carries a request. -/

namespace Sys2Proof.Machine

/-- The kind byte of a request (R198). -/
def RequestKind.code : RequestKind → Byte
  | .identify => 0x01
  | .setGroup => 0x02
  | .readGroup => 0x03
  | .setLocks => 0x04
  | .writeVariant => 0x05
  | .start => 0x06
  | .standby => 0x07
  | .restart => 0x08
  | .motion => 0x09
  | .preview => 0x0A
  | .withdraw => 0x0B
  | .selectProfile => 0x0C
  | .trimAhead => 0x0D
  | .recheck => 0x0E
  | .setReporting => 0x0F
  | .clearConditions => 0x10
  | .readOrigin => 0x11
  | .status => 0x12
  | .fetch => 0x13

/-- The request kinds of the catalogue, in its order (R198). -/
def requestKinds : List RequestKind :=
  [.identify, .setGroup, .readGroup, .setLocks, .writeVariant, .start, .standby, .restart, .motion, .preview,
    .withdraw, .selectProfile, .trimAhead, .recheck, .setReporting, .clearConditions, .readOrigin, .status, .fetch]

/-- The request kind that a kind byte names, if any (R190, finding 3). -/
def requestKindOf (b : Byte) : Option RequestKind := requestKinds.find? fun k => k.code == b

/-- The body lengths permitted for a kind (R198). -/
def RequestKind.permits (k : RequestKind) (length : Nat) : Bool :=
  match k with
  | .identify => length == 0
  | .setGroup => [12, 40, 88, 89, 133, 177].contains length
  | .readGroup => length == 1
  | .setLocks => length == 1
  | .writeVariant => length == 10
  | .start => length == 0
  | .standby => length == 0
  | .restart => length == 0
  | .motion => length == 1
  | .preview => decide (19 ≤ length) && decide (length ≤ 27)
  | .withdraw => length == 2
  | .selectProfile => length == 1
  | .trimAhead => length == 2
  | .recheck => length == 1
  | .setReporting => length == 2
  | .clearConditions => length == 2
  | .readOrigin => length == 1
  | .status => length == 0
  | .fetch => decide (length ≤ 248)

/-- The segment record in a PREVIEW body (R199). -/
def recordOf (body : List Byte) : SegmentRecord :=
  { tag := halfAt body 0, track := byteAt body 2, kind := byteAt body 3, start := wordAt body 4,
    length := halfAt body 8, amplitude := byteAt body 10, confidence := byteAt body 11, options := byteAt body 12,
    overrideFront := halfAt body 13, overrideRear := halfAt body 15, roughIntensity := byteAt body 17,
    samples := body.drop 19 }

/-- The request that a body of a permitted length carries (R199). -/
def requestOf (k : RequestKind) (body : List Byte) : Instr :=
  match k with
  | .identify => .identify
  | .setGroup => .setGroup (byteAt body 0) (body.drop 1)
  | .readGroup => .readGroup (byteAt body 0)
  | .setLocks => .setLocks (byteAt body 0)
  | .writeVariant => .writeVariant (codeAt body 0) (halfAt body 8)
  | .start => .start
  | .standby => .standby
  | .restart => .restart
  | .motion => .motion (byteAt body 0)
  | .preview => .preview (recordOf body)
  | .withdraw => .withdraw (halfAt body 0)
  | .selectProfile => .selectProfile (byteAt body 0)
  | .trimAhead => .trimAhead (byteAt body 0) (byteAt body 1)
  | .recheck => .recheck (byteAt body 0)
  | .setReporting => .setReporting (byteAt body 0) (byteAt body 1)
  | .clearConditions => .clearConditions (byteAt body 0) (byteAt body 1)
  | .readOrigin => .readOrigin (byteAt body 0)
  | .status => .status
  | .fetch => .fetch body

/-- A PREVIEW's sample count equals its body length less 19; other kinds have no sample count (R190). -/
def sampleCountAgrees (k : RequestKind) (body : List Byte) : Bool :=
  if k = .preview then natAt body 18 == body.length - 19 else true

/-- The sync value (R199). -/
def syncByte : Byte := 0xB6

/-- The CRC of a frame, over kind, length and body (R199). -/
def frameCrc (kind : Byte) (body : List Byte) : Half := crc16 (kind :: byteOfNat body.length :: body)

/-- The judgement of the bits collected, findings 1 to 5 of R190. -/
def judgeFrame (f : RawFrame) : FrameFinding :=
  let length := natAt f.bytes 2
  let body := (f.bytes.drop 3).take length
  if f.strayBits ≠ 0 ∨ f.bytes.length < 5 then .malformed
  else if byteAt f.bytes 0 ≠ syncByte then .malformed
  else
    match requestKindOf (byteAt f.bytes 1) with
    | none => .malformed
    | some kind =>
      if 248 < length ∨ ¬kind.permits length ∨ f.bytes.length ≠ length + 5 ∨ ¬sampleCountAgrees kind body then
        .malformed
      else if halfAt f.bytes (length + 3) ≠ frameCrc (byteAt f.bytes 1) body then .crcError
      else .wellFormed (requestOf kind body)

/-- The request kind of a command, if it is a request. -/
def kindOfRequest : Instr → Option RequestKind
  | .identify => some .identify
  | .setGroup _ _ => some .setGroup
  | .readGroup _ => some .readGroup
  | .setLocks _ => some .setLocks
  | .writeVariant _ _ => some .writeVariant
  | .start => some .start
  | .standby => some .standby
  | .restart => some .restart
  | .motion _ => some .motion
  | .preview _ => some .preview
  | .withdraw _ => some .withdraw
  | .selectProfile _ => some .selectProfile
  | .trimAhead _ _ => some .trimAhead
  | .recheck _ => some .recheck
  | .setReporting _ _ => some .setReporting
  | .clearConditions _ _ => some .clearConditions
  | .readOrigin _ => some .readOrigin
  | .status => some .status
  | .fetch _ => some .fetch
  | .selectAssertion => none
  | .malformedFrame _ => none
  | .noRoom _ => none
  | .fullReset _ => none
  | .resetRelease => none
  | .frontPulseArrival _ _ => none
  | .rearPulseArrival _ => none
  | .standstill _ => none
  | .update _ _ => none
  | .currentSample _ _ => none
  | .trackingTimerExpiry _ => none
  | .checkCompletion _ _ => none
  | .trimCompletion _ _ => none
  | .trimTimerExpiry _ => none
  | .silenceExpiry => none
  | .admission => none

/-- The PREVIEW body of a segment record (R199). -/
def bodyOfRecord (r : SegmentRecord) : List Byte :=
  bytesOfHalf r.tag ++ [r.track, r.kind] ++ bytesOfWord r.start ++ bytesOfHalf r.length
    ++ [r.amplitude, r.confidence, r.options] ++ bytesOfHalf r.overrideFront ++ bytesOfHalf r.overrideRear
    ++ [r.roughIntensity, byteOfNat r.samples.length] ++ r.samples

/-- The body of the frame of a request (R199); a command that is no request has none. -/
def bodyOfRequest : Instr → List Byte
  | .identify => []
  | .setGroup group contents => group :: contents
  | .readGroup group => [group]
  | .setLocks locks => [locks]
  | .writeVariant code capClass => bytesOfCode code ++ bytesOfHalf capClass
  | .start => []
  | .standby => []
  | .restart => []
  | .motion direction => [direction]
  | .preview record => bodyOfRecord record
  | .withdraw tag => bytesOfHalf tag
  | .selectProfile target => [target]
  | .trimAhead corner count => [corner, count]
  | .recheck corner => [corner]
  | .setReporting corner bits => [corner, bits]
  | .clearConditions corner bits => [corner, bits]
  | .readOrigin corner => [corner]
  | .status => []
  | .fetch body => body
  | .selectAssertion => []
  | .malformedFrame _ => []
  | .noRoom _ => []
  | .fullReset _ => []
  | .resetRelease => []
  | .frontPulseArrival _ _ => []
  | .rearPulseArrival _ => []
  | .standstill _ => []
  | .update _ _ => []
  | .currentSample _ _ => []
  | .trackingTimerExpiry _ => []
  | .checkCompletion _ _ => []
  | .trimCompletion _ _ => []
  | .trimTimerExpiry _ => []
  | .silenceExpiry => []
  | .admission => []

/-- The frame of a kind and a body, with the sync value and the CRC (R199). -/
def frameBytes (kind : Byte) (body : List Byte) : List Byte :=
  syncByte :: kind :: byteOfNat body.length :: body ++ bytesOfHalf (frameCrc kind body)

/-- The frame in which the host sends a request (R199), if the command is one. -/
def frameOf (i : Instr) : Option RawFrame :=
  (kindOfRequest i).map fun k => { bytes := frameBytes k.code (bodyOfRequest i) }

end Sys2Proof.Machine
end

