-- ==== Sys2Proof/Config.lean ====
section
/-! DEFINITION. The numbers that the manual fixes for the part, and the free values: constants without a body, of which
no proof can see what they are. -/

namespace Sys2Proof

open Machine

/-- The Preview Store has 64 slots (R22). -/
def Config.slotCount : Nat := 64

/-- The outbound queue holds at most 32 records (R192). -/
def Config.queueCapacity : Nat := 32

/-- Admission stops when the queue holds 28 records (R192, R193). -/
def Config.reportCapacity : Nat := 28

/-- The standstill time, in ms (R6). -/
def Config.standstillTime : Nat := 500

/-- The highest speed an odometer gives, in mm/s (R4). -/
def Config.maxSpeed : Nat := 100000

/-- The look-ahead limit of PREVIEW acceptance, in mm (R28). -/
def Config.lookAhead : Nat := 250000

/-- The check current, in mA (R125). -/
def Config.checkCurrent : Nat := 250

/-- A check lasts 40 ms (R131). -/
def Config.checkTime : Nat := 40

/-- A trim lasts 3 ms (R144). -/
def Config.trimTime : Nat := 3

/-- A current above 2,500 mA reads 2,500 mA (R147). -/
def Config.maxCurrentReading : Nat := 2500

/-- The highest coil drive of the part, in mA, against which map currents are checked while the variant record is
unwritten (R178). -/
def Config.maxCoilCurrent : Nat := 1600

/-- The revision that IDENTIFY reports (R187). -/
def Config.revision : Byte := 2

/-- FREE VALUE (assumption log 12). What a profile group that is UNSET reads as: it holds no contents (R177). -/
opaque Config.unsetProfile : Profile

/-- FREE VALUE (assumption log 12). What group 3 reads as while it is UNSET (R177). -/
opaque Config.unsetGeometry : Geometry

/-- FREE VALUE (assumption log 12). What group 4 reads as while it is UNSET (R177). -/
opaque Config.unsetLimits : Limits

/-- FREE VALUE (assumption log 12). What a map reads as while group 0 is UNSET (R177). -/
opaque Config.unsetMap : ValveMap

end Sys2Proof
end

