-- ==== Sys2Proof/Machine/Position.lean ====
section
/-! DEFINITION. Tracks and corners, and the comparison of positions (R1). -/

namespace Sys2Proof.Machine

/-- The value of a track. -/
def PerTrack.get {α : Type} (p : PerTrack α) : Track → α
  | .left => p.left
  | .right => p.right

/-- The values with the one of track `t` replaced. -/
def PerTrack.set {α : Type} (p : PerTrack α) (t : Track) (v : α) : PerTrack α :=
  match t with
  | .left => { p with left := v }
  | .right => { p with right := v }

/-- The values of a function on the tracks. -/
def PerTrack.of {α : Type} (f : Track → α) : PerTrack α := ⟨f .left, f .right⟩

/-- The value of a corner. -/
def PerCorner.get {α : Type} (p : PerCorner α) : Corner → α
  | .fl => p.fl
  | .fr => p.fr
  | .rl => p.rl
  | .rr => p.rr

/-- The values with the one of corner `c` replaced. -/
def PerCorner.set {α : Type} (p : PerCorner α) (c : Corner) (v : α) : PerCorner α :=
  match c with
  | .fl => { p with fl := v }
  | .fr => { p with fr := v }
  | .rl => { p with rl := v }
  | .rr => { p with rr := v }

/-- The values of a function on the corners. -/
def PerCorner.of {α : Type} (f : Corner → α) : PerCorner α := ⟨f .fl, f .fr, f .rl, f .rr⟩

/-- The value of a kind. -/
def PerKind.get {α : Type} (p : PerKind α) : Kind → α
  | .smooth => p.smooth
  | .bump => p.bump
  | .pothole => p.pothole
  | .stepUp => p.stepUp
  | .stepDown => p.stepDown
  | .rough => p.rough
  | .unknown => p.unknown

/-- The value of an accrued bit. -/
def PerBit.get {α : Type} (p : PerBit α) : AccruedBit → α
  | .limit => p.limit
  | .gap => p.gap
  | .sense => p.sense
  | .holdup => p.holdup
  | .unmet => p.unmet

/-- The values with the one of bit `b` replaced. -/
def PerBit.set {α : Type} (p : PerBit α) (b : AccruedBit) (v : α) : PerBit α :=
  match b with
  | .limit => { p with limit := v }
  | .gap => { p with gap := v }
  | .sense => { p with sense := v }
  | .holdup => { p with holdup := v }
  | .unmet => { p with unmet := v }

/-- The values of a function on the accrued bits. -/
def PerBit.of {α : Type} (f : AccruedBit → α) : PerBit α := ⟨f .limit, f .gap, f .sense, f .holdup, f .unmet⟩

/-- The value of a group. -/
def PerGroup.get {α : Type} (p : PerGroup α) : GroupId → α
  | .valveMaps => p.valveMaps
  | .profileA => p.profileA
  | .profileB => p.profileB
  | .geometry => p.geometry
  | .limits => p.limits

/-- The values of a function on the groups. -/
def PerGroup.of {α : Type} (f : GroupId → α) : PerGroup α :=
  ⟨f .valveMaps, f .profileA, f .profileB, f .geometry, f .limits⟩

/-- The corners in the order in which they are taken in turn (00_scope.md). -/
def corners : List Corner := [.fl, .fr, .rl, .rr]

/-- The tracks in the order in which they are taken in turn (00_scope.md). -/
def tracks : List Track := [.left, .right]

/-- The accrued bits in the order of R120. -/
def accruedBits : List AccruedBit := [.limit, .gap, .sense, .holdup, .unmet]

/-- The groups in the order of their numbers. -/
def groupIds : List GroupId := [.valveMaps, .profileA, .profileB, .geometry, .limits]

end Sys2Proof.Machine

namespace Sys2Proof

open Machine

/-- The track a corner is on (00_scope.md, Corners and tracks). -/
def Corner.track : Corner → Track
  | .fl => .left
  | .fr => .right
  | .rl => .left
  | .rr => .right

/-- The role of a corner on its track (00_scope.md, Corners and tracks). -/
def Corner.role : Corner → Role
  | .fl => .front
  | .fr => .front
  | .rl => .rear
  | .rr => .rear

/-- The axle partner of a corner (R96). -/
def Corner.partner : Corner → Corner
  | .fl => .fr
  | .fr => .fl
  | .rl => .rr
  | .rr => .rl

/-- The corner of a role on a track. -/
def Track.corner : Track → Role → Corner
  | .left, .front => .fl
  | .left, .rear => .rl
  | .right, .front => .fr
  | .right, .rear => .rr

end Sys2Proof

namespace Sys2Proof.Machine

/-- The modular difference of R1: the millimetres from `b` forward to `a`. -/
def difference (a b : Position) : Nat := (a - b).toNat

/-- `a` is at or beyond `b` (R1). -/
def atOrBeyond (a b : Position) : Bool := difference a b < 2147483648

/-- `a` is before (behind) `b` (R1). -/
def before (a b : Position) : Bool := !atOrBeyond a b

/-- `a` is ahead of `b` (R1). -/
def ahead (a b : Position) : Bool := atOrBeyond a b && difference a b != 0

/-- `p` carried forward by `n` millimetres, modulo 4,294,967,296 (R1). -/
def forward (p : Position) (n : Nat) : Position := p + BitVec.ofNat 32 n

/-- `p` carried back by `n` millimetres, modulo 4,294,967,296 (R1). -/
def backward (p : Position) (n : Nat) : Position := p - BitVec.ofNat 32 n

end Sys2Proof.Machine
end

