-- ==== Sys2Proof/Machine/Flags.lean ====
section
/-! DEFINITION. The condition bits of a corner: the five values derived from an update condition set (R113), and the
accrued set as the bit states show it (R114). -/

namespace Sys2Proof.Machine

/-- The five values derived from an update condition set (R113). -/
def UpdateSet.derived (u : UpdateSet) : PerBit Bool :=
  { limit := u.sat || u.rate
    gap := u.nopv || u.miss
    sense := u.subst || u.slost
    holdup := u.held
    unmet := (u.ovrd && u.sat) || (u.ovrd && u.rate) }

/-- The accrued bit of a bit state: set in every state but CLEAR (R114). -/
def BitState.isSet : BitState → Bool
  | .clear => false
  | .unreported => true
  | .waiting _ => true
  | .reported => true

/-- The origin copy of the report that waits in the bit's marker, if one does (R114). -/
def BitState.marker : BitState → Option OriginRecord
  | .clear => none
  | .unreported => none
  | .waiting origin => some origin
  | .reported => none

/-- The bit state after the end of an update (R116): a CLEAR bit that is derived true becomes WAITING with the
origin record where it is enabled, UNREPORTED where it is not; every other bit keeps its state. -/
def BitState.accrue (b : BitState) (derived enabled : Bool) (origin : OriginRecord) : BitState :=
  match b with
  | .clear => if derived then (if enabled then .waiting origin else .unreported) else .clear
  | other => other

/-- The bit state after SET_REPORTING (R117): an UNREPORTED bit that is now enabled becomes WAITING. -/
def BitState.enable (b : BitState) (enabled : Bool) (origin : OriginRecord) : BitState :=
  match b with
  | .unreported => if enabled then .waiting origin else .unreported
  | other => other

/-- The accrued condition set (R113). -/
def accruedSet (bits : PerBit BitState) : PerBit Bool := PerBit.of fun b => (bits.get b).isSet

/-- The empty origin record (R119). -/
def OriginRecord.empty : OriginRecord :=
  { tag := 0, role := none, position := none, previewDemand := none, reactiveDemand := none, finalDemand := none,
    conditions := none, driverState := none, followed := none }

/-- The set with no bit. -/
def PerBit.noBits : PerBit Bool := PerBit.of fun _ => false

end Sys2Proof.Machine
end

