-- ==== Sys2Proof/Machine/State.lean ====
section
/-! DEFINITION. The state of the block as plain data, block by block, with its full-reset values. -/

namespace Sys2Proof.Machine

/-- Why the block stops with a fault: no rule of the manual stops it, so there is no reason. Every command has an
effect in every state; a coil fault of chapter 08 is a state of its driver. -/
inductive Fault where
  deriving DecidableEq, Repr

/-- Why a command has no meaning. -/
inductive Refusal where
  /-- Raised by exec's arm of a command that has no meaning yet; a safe stop. No arm raises it. -/
  | notModelled (mnemonic : String)
  deriving DecidableEq, Repr

/-- What the assertion of select fixes for an exchange (R189): the link status byte and a copy of the head record. -/
structure Exchange where
  status : Byte
  copy : Option Record
  deriving DecidableEq, Repr

/-- The Link Interface (R196). -/
structure Lif where
  /-- The outbound queue, head first (R192). -/
  queue : List Record
  /-- Previous-frame outcome (R190). -/
  previous : FrameOutcome
  /-- Silence timer, with its timeout in ms (R195). -/
  silence : Timer
  /-- The exchange in progress, if select is asserted (R189). -/
  exchange : Option Exchange
  deriving DecidableEq, Repr

/-- The Configuration Store (R177, R184, R186, R79). An UNSET group is absent. -/
structure Cfs where
  valveMaps : Option ValveMaps
  profileA : Option Profile
  profileB : Option Profile
  geometry : Option Geometry
  limits : Option Limits
  /-- The explicit lock set (R184). -/
  locks : PerGroup Bool
  /-- The variant record; absent while unwritten (R186). -/
  variant : Option Variant
  active : ProfileName
  pendingProfile : Option ProfileName
  profileMarker : Option ProfileReport
  deriving DecidableEq, Repr

/-- The Mode Controller (R169). -/
structure Mdc where
  mode : PartMode
  faultedCount : Nat
  checkEnds : PerCorner (Option CheckResult)
  marker : Option ModeReport
  supersededCount : Nat
  deriving DecidableEq, Repr

/-- A Track Odometer (01_track_odometry_and_motion.md, Odometer state). -/
structure Tod where
  position : Position
  /-- Remainder, in micrometres. -/
  remainder : Nat
  /-- Speed, in mm/s. -/
  speed : Nat
  /-- Previous pulse time, in microseconds. -/
  previousTime : Option Nat
  /-- Last interval, in microseconds. -/
  lastInterval : Option Nat
  lock : LockState
  runCount : Nat
  direction : Direction
  /-- Front window travel, in micrometres. -/
  frontTravel : Nat
  /-- Rear window travel, in micrometres. -/
  rearTravel : Nat
  standstill : Timer
  marker : Option LockReport
  deriving DecidableEq, Repr

/-- The Preview Store (R20, R21, R38). The FREE slots are the places that no list holds. -/
structure Store where
  /-- The ordered list of each track (R21). -/
  lists : PerTrack (List Slot)
  preview : PreviewState
  /-- The model's own: the name of the next occupancy of a slot (assumption log 13). -/
  nextSerial : Nat
  /-- The model's own: the next place of the spent order (assumption log 13). -/
  nextSpent : Nat
  deriving DecidableEq, Repr

/-- A Corner Controller (R109, R79, R124), with the MISS notice that the store gives its corner (R64). -/
structure Cc where
  sensor : SensorState
  badRun : Nat
  goodRun : Nat
  /-- Previous height, in micrometres. -/
  previousHeight : Option Int
  /-- Own velocity, in mm/s. -/
  ownVelocity : Int
  lastDemand : Nat
  followed : ProfileName
  switchReference : SwitchReference
  switchPosition : Option Position
  missNotice : Bool
  conditions : UpdateSet
  bits : PerBit BitState
  enabled : PerBit Bool
  origin : OriginRecord
  deriving DecidableEq, Repr

/-- A Valve Driver (R149, R167). -/
structure Vd where
  state : DriverState
  /-- Setpoint, in mA. -/
  setpoint : Nat
  heldDemand : Nat
  /-- Measured current, in mA. -/
  measured : Nat
  /-- Resistance estimate, in 0.01 ohm. -/
  resistance : Option Nat
  /-- Temperature estimate, in degrees C. -/
  temperature : Option Int
  operation : Timer
  /-- Trim origin and trim kind, held while in TRIM. -/
  trim : Option Trim
  trimTimer : Timer
  balance : Int
  pullIn : Nat
  tracking : Timer
  /-- The quiet copy: true for quiet (R138). -/
  quiet : Bool
  faultRecord : Option FaultRecord
  retryCount : Nat
  faultMarker : Option FaultReport
  deriving DecidableEq, Repr

/-- The state of the block, and the queue of the commands that wait. -/
structure State where
  /-- The commands that wait, first in, first out. -/
  pending : List Instr
  /-- The reset input is held asserted (R174). -/
  resetHeld : Bool
  lif : Lif
  cfs : Cfs
  mdc : Mdc
  tod : PerTrack Tod
  pvs : Store
  cc : PerCorner Cc
  vd : PerCorner Vd
  deriving DecidableEq, Repr

/-- LIF after full reset (R196). R196 lists no exchange: that a full reset drops one in progress is the model's choice
(assumption log 36). -/
def Lif.reset : Lif := { queue := [], previous := .accepted, silence := .stopped, exchange := none }

/-- CFS after full reset (R79, R177, R184, R186). -/
def Cfs.reset : Cfs :=
  { valveMaps := none, profileA := none, profileB := none, geometry := none, limits := none,
    locks := PerGroup.of fun _ => false, variant := none, active := .a, pendingProfile := none, profileMarker := none }

/-- MDC after full reset and after RESTART (R169). -/
def Mdc.reset : Mdc :=
  { mode := .config, faultedCount := 0, checkEnds := PerCorner.of fun _ => none, marker := none, supersededCount := 0 }

/-- An odometer after full reset and after RESTART (R17). -/
def Tod.reset : Tod :=
  { position := 0, remainder := 0, speed := 0, previousTime := none, lastInterval := none, lock := .unlocked,
    runCount := 0, direction := .unknown, frontTravel := 0, rearTravel := 0, standstill := .stopped, marker := none }

/-- The store after full reset and after RESTART (R46). -/
def Store.reset : Store :=
  { lists := PerTrack.of fun _ => [], preview := .suspended, nextSerial := 0, nextSpent := 0 }

/-- A corner after full reset and after RESTART (R64, R79, R109, R124). -/
def Cc.reset : Cc :=
  { sensor := .valid, badRun := 0, goodRun := 0, previousHeight := none, ownVelocity := 0, lastDemand := 1000,
    followed := .a, switchReference := .notSet, switchPosition := none, missNotice := false, conditions := {},
    bits := PerBit.of fun _ => .clear, enabled := PerBit.of fun _ => false, origin := OriginRecord.empty }

/-- A driver after full reset (R149, R167). -/
def Vd.reset : Vd :=
  { state := .off, setpoint := 0, heldDemand := 1000, measured := 0, resistance := none, temperature := none,
    operation := .stopped, trim := none, trimTimer := .stopped, balance := 0, pullIn := 0, tracking := .stopped,
    quiet := true, faultRecord := none, retryCount := 0, faultMarker := none }

/-- The block right after a full reset, with the reset input released (R174; assumption log 10). -/
def State.reset : State :=
  { pending := [], resetHeld := false, lif := Lif.reset, cfs := Cfs.reset, mdc := Mdc.reset,
    tod := PerTrack.of fun _ => Tod.reset, pvs := Store.reset, cc := PerCorner.of fun _ => Cc.reset,
    vd := PerCorner.of fun _ => Vd.reset }

end Sys2Proof.Machine
end

