-- ==== Sys2Proof/Machine/Ops.lean ====
section
/-! DEFINITION. The named reads and writes of State that every block uses, the guard of the reset input, and the MODE
report. -/

namespace Sys2Proof.Machine

/-! ## Writes, one block at a time -/

def State.setLif (s : State) (l : Lif) : State := { s with lif := l }
def State.setCfs (s : State) (c : Cfs) : State := { s with cfs := c }
def State.setMdc (s : State) (m : Mdc) : State := { s with mdc := m }
def State.setPvs (s : State) (p : Store) : State := { s with pvs := p }
def State.setTod (s : State) (t : Track) (o : Tod) : State := { s with tod := s.tod.set t o }
def State.setCc (s : State) (c : Corner) (x : Cc) : State := { s with cc := s.cc.set c x }
def State.setVd (s : State) (c : Corner) (v : Vd) : State := { s with vd := s.vd.set c v }

/-- Every odometer changed by `f`. -/
def State.mapTod (s : State) (f : Track → Tod → Tod) : State :=
  { s with tod := PerTrack.of fun t => f t (s.tod.get t) }

/-- Every corner controller changed by `f`. -/
def State.mapCc (s : State) (f : Corner → Cc → Cc) : State :=
  { s with cc := PerCorner.of fun c => f c (s.cc.get c) }

/-- Every driver changed by `f`. -/
def State.mapVd (s : State) (f : Corner → Vd → Vd) : State :=
  { s with vd := PerCorner.of fun c => f c (s.vd.get c) }

/-- What an event does while the reset input is not held. While it is held the part takes no frame, counts no pulse
and stays at its full-reset values (R174). -/
def State.unlessHeld (s : State) (f : State → State) : State := if s.resetHeld then s else f s

/-! ## Reads -/

/-- The contents of a profile group; a free value while it is UNSET (assumption log 12). -/
def State.profile (s : State) : ProfileName → Profile
  | .a => s.cfs.profileA.getD Config.unsetProfile
  | .b => s.cfs.profileB.getD Config.unsetProfile

/-- The profile that a corner follows (R74). -/
def State.followedProfile (s : State) (c : Corner) : Profile := s.profile (s.cc.get c).followed

/-- The contents of group 3; a free value while it is UNSET (assumption log 12). -/
def State.geometry (s : State) : Geometry := s.cfs.geometry.getD Config.unsetGeometry

/-- The contents of group 4; a free value while it is UNSET (assumption log 12). -/
def State.limits (s : State) : Limits := s.cfs.limits.getD Config.unsetLimits

/-- The map of a corner on its axle (R127). -/
def AxleMaps.forTrack : AxleMaps → Track → ValveMap
  | .shared map, _ => map
  | .separate left _, .left => left
  | .separate _ right, .right => right

/-- The map of a corner (R127). -/
def ValveMaps.forCorner (m : ValveMaps) (c : Corner) : ValveMap :=
  match c.role with
  | .front => m.front.forTrack c.track
  | .rear => m.rear.forTrack c.track

/-- The map that a corner uses (R127); a free value while group 0 is UNSET (assumption log 12). -/
def State.map (s : State) (c : Corner) : ValveMap :=
  match s.cfs.valveMaps with
  | some m => m.forCorner c
  | none => Config.unsetMap

/-- The position of a role on a track whose front corner stands at `p` (R2). -/
def State.rolePosition (s : State) (p : Position) : Role → Position
  | .front => p
  | .rear => backward p s.geometry.wheelbase

/-- A corner's position, derived from its track's position each time it is read (R2). -/
def State.cornerPosition (s : State) (c : Corner) : Position := s.rolePosition (s.tod.get c.track).position c.role

/-- The odometers count in STARTING, RUN and SAFE (R3). -/
def PartMode.counting : PartMode → Bool
  | .config => false
  | .starting => true
  | .run => true
  | .safe => true
  | .standby => false

/-- The attention line is asserted while the queue holds a record (R192). -/
def State.attention (s : State) : Bool := !s.lif.queue.isEmpty

/-- Which groups are SET (R177). -/
def State.groupsSet (s : State) : PerGroup Bool :=
  { valveMaps := s.cfs.valveMaps.isSome, profileA := s.cfs.profileA.isSome, profileB := s.cfs.profileB.isSome,
    geometry := s.cfs.geometry.isSome, limits := s.cfs.limits.isSome }

/-- Which groups are UNSET (R170). -/
def State.groupsUnset (s : State) : PerGroup Bool := PerGroup.of fun g => !s.groupsSet.get g

/-- Every group is SET (R170). -/
def State.allGroupsSet (s : State) : Bool := groupIds.all fun g => s.groupsSet.get g

/-- A profile group is in use: the part is in STARTING, RUN or SAFE, and a corner follows it or a switch is pending,
which is to one profile and from the other (R87). -/
def State.profileInUse (s : State) (p : ProfileName) : Bool :=
  s.mdc.mode.counting && (corners.any (fun c => (s.cc.get c).followed == p) || s.cfs.pendingProfile.isSome)

/-- A group is in use; only profile groups ever are (R184). -/
def State.groupInUse (s : State) : GroupId → Bool
  | .profileA => s.profileInUse .a
  | .profileB => s.profileInUse .b
  | .valveMaps => false
  | .geometry => false
  | .limits => false

/-- A group is protected while it is explicitly locked, or in use, or both (R184). -/
def State.groupProtected (s : State) (g : GroupId) : Bool := s.cfs.locks.get g || s.groupInUse g

/-! ## MODE reports -/

/-- The superseded count that a MODE report made now carries: it counts the report that this one replaces (R175). -/
def Mdc.nextSuperseded (m : Mdc) : Nat :=
  if m.marker.isSome then (if m.supersededCount < 255 then m.supersededCount + 1 else 255) else m.supersededCount

/-- A MODE report is made: it is placed in the marker, replacing any report there (R175). The part mode, preview state
and faulted count it carries are those of `s`, after the change. -/
def State.makeModeReport (s : State) (cause : ModeCause) (previous : PartMode) : State :=
  let n := s.mdc.nextSuperseded
  s.setMdc
    { s.mdc with
      marker := some
        { cause, mode := s.mdc.mode, previous, preview := s.pvs.preview, faultedCount := s.mdc.faultedCount,
          superseded := n }
      supersededCount := n }

end Sys2Proof.Machine
end

