-- ==== Sys2Proof/Machine/StoreOps.lean ====
section
/-! DEFINITION. The Preview Store's operations on its slots and lists: kinds as treated, leads and trails, passage,
the segment in effect, measurement, flushes, admission of a PASSAGE report. -/

namespace Sys2Proof.Machine

/-! ## Reading a segment through a profile -/

/-- The kind a profile treats a segment as (R75). -/
def Profile.treats (p : Profile) (s : Segment) : Kind := if s.confidence < p.threshold then .unknown else s.kind

/-- The row a profile uses for a segment (R73, R75). -/
def Profile.rowFor (p : Profile) (s : Segment) : ResponseRow := p.rows.get (p.treats s)

/-- The live lead of a segment in a profile at a track speed (R24, R51). -/
def liveLead (p : Profile) (speed : Nat) (s : Segment) : Nat :=
  speed * p.responseTime / 1000 + (p.rowFor s).leadExtension

/-- The position at which a segment's extent ends, excluded from the extent (R21). -/
def Segment.finish (s : Segment) : Position := forward s.start s.length

/-- The trail end of a segment in a profile (R49, R50). -/
def trailEnd (p : Profile) (s : Segment) : Position := forward s.start (s.length + (p.rowFor s).trail)

/-- Two segments overlap when each starts before the other ends (R21). -/
def Segment.overlaps (a b : Segment) : Bool := before a.start b.finish && before b.start a.finish

/-! ## Slots -/

/-- A segment of the store is committed in every state but PENDING (R23). -/
def SlotState.committed : SlotState → Bool
  | .pending => false
  | .frontLead => true
  | .frontOn => true
  | .between => true
  | .rearLead => true
  | .rearOn => true
  | .spent => true

/-- The state in which a segment is ON for a role (R60). -/
def SlotState.isOn : SlotState → Role → Bool
  | .frontOn, .front => true
  | .rearOn, .rear => true
  | .pending, _ => false
  | .frontLead, _ => false
  | .frontOn, .rear => false
  | .between, _ => false
  | .rearLead, _ => false
  | .rearOn, .front => false
  | .spent, _ => false

/-- The states in which a segment is in a LEAD or ON state for a role (R57). -/
def SlotState.isInEffect : SlotState → Role → Bool
  | .frontLead, .front => true
  | .frontOn, .front => true
  | .rearLead, .rear => true
  | .rearOn, .rear => true
  | .pending, _ => false
  | .frontLead, .rear => false
  | .frontOn, .rear => false
  | .between, _ => false
  | .rearLead, .front => false
  | .rearOn, .front => false
  | .spent, _ => false

/-- A role's record on acceptance: every value absent, the seen mark and the MISSED flag clear (R20). -/
def RoleRecord.fresh : RoleRecord :=
  { frozenLead := none, entryDemand := none, peakVelocity := none, heightMin := none, heightMax := none, seen := false,
    missed := false }

/-- A slot on acceptance (R20). -/
def Slot.accepted (serial : Nat) (s : Segment) : Slot :=
  { serial, segment := s, state := .pending, front := RoleRecord.fresh, rear := RoleRecord.fresh, incomplete := false,
    overrideUsed := false, spentPlace := none }

/-- The record of a role. -/
def Slot.role (x : Slot) : Role → RoleRecord
  | .front => x.front
  | .rear => x.rear

/-- The slot with the record of a role replaced. -/
def Slot.setRole (x : Slot) (r : Role) (v : RoleRecord) : Slot :=
  match r with
  | .front => { x with front := v }
  | .rear => { x with rear := v }

/-! ## Passage (R53 to R55) -/

/-- What an advance reads for one role: the corner's position, followed profile and last demand (R48, R62). -/
structure RoleView where
  position : Position
  profile : Profile
  demand : Nat
  deriving DecidableEq, Repr, Inhabited

/-- What an advance reads: the speed of its pulse and both corners of the track (R48). -/
structure AdvanceView where
  speed : Nat
  front : RoleView
  rear : RoleView
  deriving DecidableEq, Repr, Inhabited

/-- The role's corner lies before the segment's lead point, by its live lead (R49). -/
def RoleView.beforeLead (v : RoleView) (speed : Nat) (s : Segment) : Bool :=
  before v.position (backward s.start (liveLead v.profile speed s))

/-- The role's corner lies before the segment's start (R49). -/
def RoleView.beforeStart (v : RoleView) (s : Segment) : Bool := before v.position s.start

/-- The role's corner lies before the segment's trail end (R49). -/
def RoleView.beforeTrailEnd (v : RoleView) (s : Segment) : Bool := before v.position (trailEnd v.profile s)

/-- A role's record as its ON state is left by an advance: MISSED is set if the role was not seen (R63). -/
def RoleRecord.leave (r : RoleRecord) : RoleRecord := { r with missed := r.missed || !r.seen }

/-- A slot in REAR_ON (R54). -/
def Slot.inRearOn (x : Slot) (v : AdvanceView) : Slot :=
  if v.rear.beforeTrailEnd x.segment then x else { x with state := .spent, rear := x.rear.leave }

/-- A slot that enters REAR_ON: the rear entry demand is recorded (R62). -/
def Slot.enterRearOn (x : Slot) (v : AdvanceView) : Slot :=
  ({ x with state := .rearOn, rear := { x.rear with entryDemand := some v.rear.demand } }).inRearOn v

/-- A slot in REAR_LEAD (R54). -/
def Slot.inRearLead (x : Slot) (v : AdvanceView) : Slot :=
  if v.rear.beforeStart x.segment then x else x.enterRearOn v

/-- A slot that enters REAR_LEAD: the frozen rear lead is fixed (R52). -/
def Slot.enterRearLead (x : Slot) (v : AdvanceView) : Slot :=
  ({ x with
      state := .rearLead
      rear := { x.rear with frozenLead := some (liveLead v.rear.profile v.speed x.segment) } }).inRearLead v

/-- A slot past front, or in BETWEEN (R54). -/
def Slot.inBetween (x : Slot) (v : AdvanceView) : Slot :=
  if v.rear.beforeLead v.speed x.segment then x else x.enterRearLead v

/-- A slot in FRONT_ON (R53). -/
def Slot.inFrontOn (x : Slot) (v : AdvanceView) : Slot :=
  if v.front.beforeTrailEnd x.segment then x
  else ({ x with state := .between, front := x.front.leave }).inBetween v

/-- A slot that enters FRONT_ON: the front entry demand is recorded (R62). -/
def Slot.enterFrontOn (x : Slot) (v : AdvanceView) : Slot :=
  ({ x with state := .frontOn, front := { x.front with entryDemand := some v.front.demand } }).inFrontOn v

/-- A slot in FRONT_LEAD (R53). -/
def Slot.inFrontLead (x : Slot) (v : AdvanceView) : Slot :=
  if v.front.beforeStart x.segment then x else x.enterFrontOn v

/-- A slot that enters FRONT_LEAD: the frozen front lead is fixed (R52). -/
def Slot.enterFrontLead (x : Slot) (v : AdvanceView) : Slot :=
  ({ x with
      state := .frontLead
      front := { x.front with frozenLead := some (liveLead v.front.profile v.speed x.segment) } }).inFrontLead v

/-- A slot in PENDING (R53). -/
def Slot.inPending (x : Slot) (v : AdvanceView) : Slot :=
  if v.front.beforeLead v.speed x.segment then x else x.enterFrontLead v

/-- A slot at an advance of its track: the front part and then the rear part, with the work of every state entered
and left (R53 to R55). A SPENT slot is not re-evaluated (R48). -/
def Slot.advance (x : Slot) (v : AdvanceView) : Slot :=
  match x.state with
  | .pending => x.inPending v
  | .frontLead => x.inFrontLead v
  | .frontOn => x.inFrontOn v
  | .between => x.inBetween v
  | .rearLead => x.inRearLead v
  | .rearOn => x.inRearOn v
  | .spent => x

/-- An advance leaves a slot's ON state for a role unseen (R63). -/
def Slot.missedAt (x : Slot) (v : AdvanceView) (r : Role) : Bool :=
  ((x.advance v).role r).missed && !(x.role r).missed

/-! ## Release of SPENT slots, and flushes -/

/-- The slot placed before the first of a list that its start comes before (R21, R34). -/
def insertByStart (x : Slot) : List Slot → List Slot
  | [] => [x]
  | y :: ys => if before x.segment.start y.segment.start then x :: y :: ys else y :: insertByStart x ys

/-- The slots in ascending order of start, compared with one another by R1. -/
def inStartOrder (xs : List Slot) : List Slot := xs.foldr insertByStart []

/-- A list is in ascending order of start: of every two slots the later one starts ahead of the other by R1 (R21). -/
def ascending : List Slot → Bool
  | [] => true
  | x :: xs => (xs.all fun y => ahead y.segment.start x.segment.start) && ascending xs

/-- The list of a track after slots have entered or left it: in ascending order of start (R21). Slots that have no ascending
order by R1 stand as they are given: the model's choice (assumption log 21). -/
def arrange (xs : List Slot) : List Slot := if ascending (inStartOrder xs) then inStartOrder xs else xs

/-- A slot that has just become SPENT: it has no place in the spent order. -/
def Slot.newlySpent (x : Slot) : Bool := x.state == .spent && x.spentPlace.isNone

/-- The slots that have just become SPENT with report yes, in ascending order of start (R43). -/
def newlyWaiting (xs : List Slot) : List Slot := inStartOrder (xs.filter fun x => x.newlySpent && x.segment.report)

/-- A slot of the list given its place in the spent order, where it has just become SPENT: the places from `n` on are
taken in the order of `waiting`. -/
def Slot.takePlace (x : Slot) (n : Nat) (waiting : List Slot) : Slot :=
  if x.newlySpent then { x with spentPlace := some (n + (waiting.map Slot.serial).idxOf x.serial) } else x

/-- The slots that have just become SPENT are released by their report flag (R43, R67): report no frees the slot, report
yes gives it a place at the end of the spent order, from the place `n` on, in ascending order of start. -/
def settle (n : Nat) (xs : List Slot) : List Slot × Nat :=
  ((arrange (xs.filter fun x => !x.newlySpent || x.segment.report)).map fun x => x.takePlace n (newlyWaiting xs),
    n + (newlyWaiting xs).length)

/-- A slot as an all-segment flush leaves it: a committed slot not yet SPENT becomes SPENT with INCOMPLETE (R42). -/
def Slot.flushed (x : Slot) : Slot :=
  if x.state = .spent then x else { x with state := .spent, incomplete := true }

/-- PENDING slots of a list are freed (R42). -/
def withoutPending (xs : List Slot) : List Slot := xs.filter fun x => x.state != .pending

/-- A list with its newly SPENT slots released, put in the place of the track's list. -/
def Store.settleList (p : Store) (t : Track) (xs : List Slot) : Store :=
  { p with lists := p.lists.set t (settle p.nextSpent xs).1, nextSpent := (settle p.nextSpent xs).2 }

/-- An all-segment flush of a track (R42, R43). -/
def Store.flush (p : Store) (t : Track) : Store :=
  p.settleList t ((withoutPending (p.lists.get t)).map Slot.flushed)

/-- An all-segment flush of both tracks, LEFT first (R43). -/
def Store.flushBoth (p : Store) : Store := (p.flush .left).flush .right

/-- A silence flush of both tracks: every PENDING segment is freed (R39, R42). -/
def Store.silenceFlush (p : Store) : Store :=
  { p with lists := PerTrack.of fun t => arrange (withoutPending (p.lists.get t)) }

/-- An advance of a track (R56). -/
def Store.advance (p : Store) (t : Track) (v : AdvanceView) : Store :=
  p.settleList t ((p.lists.get t).map fun x => x.advance v)

/-! ## The segment in effect, and measurement -/

/-- The later of two slots by start (R57). -/
def laterStart (best : Option Slot) (x : Slot) : Option Slot :=
  match best with
  | none => some x
  | some b => if ahead x.segment.start b.segment.start then some x else some b

/-- The segment in effect of a role: the one with the greatest start among those in the role's LEAD or ON state
(R57). -/
def inEffectOf (xs : List Slot) (r : Role) : Option Slot :=
  (xs.filter fun x => x.state.isInEffect r).foldl laterStart none

/-- The segment in effect of a corner, as the slot states give it (R57; assumption log 14). -/
def Store.inEffect (p : Store) (c : Corner) : Option Slot := inEffectOf (p.lists.get c.track) c.role

/-- A supplied height and velocity folded into a role's record (R61). -/
def RoleRecord.fold (r : RoleRecord) (height velocity : Int) : RoleRecord :=
  { r with
    peakVelocity := some (match r.peakVelocity with
      | none => velocity.natAbs
      | some v => if v < velocity.natAbs then velocity.natAbs else v)
    heightMin := some (match r.heightMin with
      | none => height
      | some h => if height < h then height else h)
    heightMax := some (match r.heightMax with
      | none => height
      | some h => if h < height then height else h) }

/-- A slot that an update of a role's corner finds: in the ON state it is marked seen, and receives the supplied
height and velocity if there are any (R60). -/
def Slot.present (x : Slot) (r : Role) (supplied : Option (Int × Int)) : Slot :=
  if x.state.isOn r then
    let marked := { x.role r with seen := true }
    x.setRole r (match supplied with
      | none => marked
      | some (height, velocity) => marked.fold height velocity)
  else x

/-- An update of a corner is presented to the store (R60). -/
def Store.present (p : Store) (c : Corner) (supplied : Option (Int × Int)) : Store :=
  { p with lists := p.lists.set c.track ((p.lists.get c.track).map fun x => x.present c.role supplied) }

/-- OVERRIDE_USED is set in the slot of that serial (R66). -/
def Store.markOverride (p : Store) (t : Track) (serial : Nat) : Store :=
  { p with
    lists := p.lists.set t ((p.lists.get t).map fun x => if x.serial = serial then { x with overrideUsed := true } else x) }

/-! ## Slots in number, and the spent order -/

/-- Every held slot, LEFT then RIGHT. -/
def Store.held (p : Store) : List Slot := p.lists.left ++ p.lists.right

/-- The number of FREE slots (R20, R22). -/
def Store.free (p : Store) : Nat := Config.slotCount - p.held.length

/-- The number of held slots in a state (R47). -/
def Store.count (p : Store) (st : SlotState) : Nat := (p.held.filter fun x => x.state = st).length

/-- The earlier of two waiting SPENT slots by spent place (R43). -/
def earlierSpent (best : Option (Nat × Slot)) (x : Slot) : Option (Nat × Slot) :=
  match x.spentPlace, best with
  | none, _ => best
  | some n, none => some (n, x)
  | some n, some (m, b) => if n < m then some (n, x) else some (m, b)

/-- The oldest slot of the spent order (R43). -/
def Store.oldestSpent (p : Store) : Option Slot := (p.held.foldl earlierSpent none).map Prod.snd

/-- The slot of that serial becomes FREE and leaves its list (R70, R34, R37). -/
def Store.release (p : Store) (serial : Nat) : Store :=
  { p with lists := PerTrack.of fun t => arrange ((p.lists.get t).filter fun x => x.serial != serial) }

/-- A number as a two-byte field of a PASSAGE report shows it (R69). -/
def capField (n : Nat) : Nat := if n < 65535 then n else 65535

/-- The travel of a role (R69). -/
def RoleRecord.travel (r : RoleRecord) : Option Nat :=
  match r.heightMin, r.heightMax with
  | some low, some high => some (capField ((high - low).toNat / 1000))
  | _, _ => none

/-- The PASSAGE report of a slot (R68, R69). -/
def Slot.passageReport (x : Slot) : PassageReport :=
  { tag := x.segment.tag, track := x.segment.track, kind := x.segment.kind, start := x.segment.start,
    length := x.segment.length, incomplete := x.incomplete, missedFront := x.front.missed,
    missedRear := x.rear.missed, overrideUsed := x.overrideUsed, frontLead := x.front.frozenLead,
    rearLead := x.rear.frozenLead, frontEntry := x.front.entryDemand, rearEntry := x.rear.entryDemand,
    frontPeak := x.front.peakVelocity.map capField, frontTravel := x.front.travel,
    rearPeak := x.rear.peakVelocity.map capField, rearTravel := x.rear.travel }

end Sys2Proof.Machine
end

