-- ==== Sys2Proof/Machine/SwitchOps.lean ====
section
/-! DEFINITION. The profile switch, corner by corner (R82 to R86), as the blocks that bring it about share it. -/

namespace Sys2Proof.Machine

/-- The segment in effect of a corner, as the store holds it (R57). -/
def State.inEffect (s : State) (c : Corner) : Option Slot := s.pvs.inEffect c

/-- A driver in DRIVE or TRIM (R82 to R84). -/
def DriverState.drivesOrTrims : DriverState → Bool
  | .drive => true
  | .trim => true
  | .off => false
  | .checking => false
  | .armed => false
  | .hold => false
  | .released => false
  | .faulted => false

/-- A corner has a switch to make: a profile is pending and the corner does not follow it yet (R79; assumption
log 17). -/
def State.hasSwitch (s : State) (c : Corner) : Bool :=
  match s.cfs.pendingProfile with
  | none => false
  | some p => (s.cc.get c).followed != p

/-- Every corner follows a profile. -/
def State.allFollow (s : State) (p : ProfileName) : Bool := corners.all fun c => (s.cc.get c).followed == p

/-- The switch completes when the last corner has switched: the pending profile becomes active and a PROFILE report
is placed in the marker (R85). -/
def State.completeSwitch (s : State) : State :=
  match s.cfs.pendingProfile with
  | none => s
  | some p =>
    if s.allFollow p then
      s.setCfs
        { s.cfs with
          active := p
          pendingProfile := none
          profileMarker := some
            { active := p, previous := s.cfs.active
              positions := PerCorner.of fun c => (s.cc.get c).switchPosition } }
    else s

/-- A corner takes the pending profile: its reference becomes not set and its switch position is its position now
(R83). -/
def State.takePending (s : State) (c : Corner) : State :=
  match s.cfs.pendingProfile with
  | none => s
  | some p =>
    s.setCc c
      { s.cc.get c with
        followed := p
        switchReference := .notSet
        switchPosition := some (s.cornerPosition c) }

/-- A corner switches, and the switch completes if it was the last (R83, R85). -/
def State.switchCorner (s : State) (c : Corner) : State := (s.takePending c).completeSwitch

/-- A corner that has a switch to make switches when its driver leaves DRIVE or TRIM in RUN for another state (R84).
`former` is the state the driver has left. -/
def State.driverLeft (s : State) (c : Corner) (former : DriverState) : State :=
  if former.drivesOrTrims ∧ s.mdc.mode = .run ∧ s.hasSwitch c then s.switchCorner c else s

/-- The corner has reached its boundary: it has no segment in effect, or one that is not the segment of its switch
reference (R83; assumption log 17). -/
def State.atBoundary (s : State) (c : Corner) : Bool :=
  match s.inEffect c with
  | none => true
  | some x => (s.cc.get c).switchReference != .segment x.serial

/-- The boundary test at the start of an update in RUN (R83). -/
def State.boundaryTest (s : State) (c : Corner) : State :=
  if (s.vd.get c).state.drivesOrTrims ∧ s.hasSwitch c ∧ s.atBoundary c then s.switchCorner c else s

/-- The switch reference that a corner takes when a switch begins (R82). -/
def State.referenceNow (s : State) (c : Corner) : SwitchReference :=
  match s.inEffect c with
  | none => .noSegment
  | some x => .segment x.serial

/-- What a corner does when a switch begins: it keeps its profile and takes a reference while its driver is in DRIVE
or TRIM, and switches at once otherwise (R82). -/
def State.beginAtCorner (s : State) (c : Corner) : State :=
  if (s.vd.get c).state.drivesOrTrims then
    s.setCc c { s.cc.get c with switchReference := s.referenceNow c }
  else s.takePending c

/-- A switch begins in RUN or STARTING, and completes at once if every corner has switched (R82, R85). -/
def State.beginSwitch (s : State) (target : ProfileName) : State :=
  ((corners.foldl State.beginAtCorner (s.setCfs { s.cfs with pendingProfile := some target }))).completeSwitch

/-- An immediate switch in CONFIG or STANDBY (R81). -/
def State.immediateSwitch (s : State) (target : ProfileName) : State :=
  (s.setCfs { s.cfs with active := target, pendingProfile := none }).mapCc fun _ x => { x with followed := target, switchReference := .notSet }

/-- At entry to STANDBY every corner that has not yet switched does so, and the switch completes (R86). -/
def State.switchAtStandby (s : State) : State :=
  (corners.foldl (fun s c => if s.hasSwitch c then s.takePending c else s) s).completeSwitch

end Sys2Proof.Machine
end

