-- ==== Sys2Proof/Machine/DriverOps.lean ====
section
/-! DEFINITION. The Valve Driver's shared operations: the map current, the entries to each driver state (R130), the trim
timer (R136), the start tests (R139 to R141), the classification of a resistance (R132) and the temperature (R133). -/

namespace Sys2Proof.Machine

/-! ## The map current -/

/-- Straight-line interpolation between two neighbouring points (R128). -/
def MapPoint.interpolate (p q : MapPoint) (d : Nat) : Nat :=
  p.current - (p.current - q.current) * (d - p.demand) / (q.demand - p.demand)

/-- The current at a demand along the points that follow a point (R128). -/
def currentFrom (p : MapPoint) (d : Nat) : List MapPoint → Nat
  | [] => p.current
  | q :: rest => if d ≤ p.demand then p.current else if d < q.demand then p.interpolate q d else currentFrom q d rest

/-- The map current of a demand (R128). -/
def ValveMap.current (m : ValveMap) (d : Nat) : Nat :=
  currentFrom m.p1 d [m.p2, m.p3, m.p4, m.p5, m.p6, m.p7, m.p8, m.p9]

/-! ## Resistance and temperature -/

/-- The classification of a measured resistance (R132). -/
inductive Classification where
  | short
  | ok
  | openCircuit
  deriving DecidableEq, Repr, Inhabited

/-- The measured resistance against the limits of the corner's map (R132). -/
def ValveMap.classify (m : ValveMap) (r : Nat) : Classification :=
  if r < m.shortLimit then .short else if m.openLimit < r then .openCircuit else .ok

/-- The temperature estimate of a resistance (R133). -/
def ValveMap.temperatureOf (m : ValveMap) (r : Nat) : Int :=
  let t := (((r : Int) - m.coldResistance) * 100000).tdiv (393 * m.coldResistance) + 20
  if t < -40 then -40 else if 250 < t then 250 else t

/-- A temperature estimate is at or above a limit (R134, R136). -/
def atOrAbove (temperature : Option Int) (limit : Nat) : Bool :=
  match temperature with
  | none => false
  | some t => decide ((limit : Int) ≤ t)

/-- A driver's estimate is at or above hot (R134). -/
def State.isHot (s : State) (c : Corner) : Bool := atOrAbove (s.vd.get c).temperature s.limits.hot

/-- A driver's estimate is at or above warm (R136). -/
def State.isWarm (s : State) (c : Corner) : Bool := atOrAbove (s.vd.get c).temperature s.limits.warm

/-! ## The trim timer -/

/-- The interval in force: the trim interval, or half of it where the estimate is at or above warm (R136). -/
def State.trimInterval (s : State) (c : Corner) : Nat :=
  if s.isWarm c then s.limits.trimInterval / 2 else s.limits.trimInterval

/-- The trim timer starts at 0 ms with the interval in force, the balance and the pull-in count become 0 (R134, R135). -/
def State.startTrimSchedule (s : State) (c : Corner) : State :=
  s.setVd c { s.vd.get c with balance := 0, pullIn := 0, trimTimer := .running (s.trimInterval c) }

/-! ## Entries to driver states -/

/-- A driver as a state that carries no current takes it: no setpoint, no operation, no timer, no pull-in count (R130,
R136, R143, R147, R150). -/
def Vd.atRest (v : Vd) (st : DriverState) : Vd :=
  { v with
    state := st, setpoint := 0, operation := .stopped, trim := none, trimTimer := .stopped, pullIn := 0
    tracking := .stopped }

/-- A driver as entry to CHECKING leaves it (R131). -/
def Vd.checking (v : Vd) : Vd :=
  { v with
    state := .checking, setpoint := Config.checkCurrent, operation := .running Config.checkTime, trim := none
    trimTimer := .stopped, pullIn := 0, tracking := .stopped }

/-- Entry to DRIVE from ARMED, from CHECKING, or from a trim whose origin was HOLD: the held demand and the corner's
last demand become the floor of the followed profile, and the setpoint its map current (R106, R130). -/
def State.enterDriveAtFloor (s : State) (c : Corner) : State :=
  let floor := (s.followedProfile c).floor
  (s.setVd c
      { s.vd.get c with
        state := .drive, setpoint := (s.map c).current floor, heldDemand := floor, operation := .stopped, trim := none
        tracking := .stopped }).setCc c
    { s.cc.get c with lastDemand := floor }

/-- Entry to DRIVE from a trim whose origin was DRIVE: the setpoint is the map current of the held demand (R130). -/
def State.enterDriveKept (s : State) (c : Corner) : State :=
  s.setVd c
    { s.vd.get c with
      state := .drive, setpoint := (s.map c).current (s.vd.get c).heldDemand, operation := .stopped, trim := none
      tracking := .stopped }

/-- Entry to HOLD: the setpoint is the hold current, the pull-in count becomes 0 (R130, R143), and a corner with a
switch to make switches where the driver has left DRIVE or TRIM (R84, R146). -/
def State.enterHold (s : State) (c : Corner) : State :=
  (s.setVd c
      { s.vd.get c with
        state := .hold, setpoint := (s.map c).holdCurrent, operation := .stopped, trim := none, pullIn := 0
        tracking := .stopped }).driverLeft c (s.vd.get c).state

/-- A trim starts: the setpoint is kept, the operation timer starts, the tracking timer is stopped (R139). -/
def State.startTrim (s : State) (c : Corner) (origin : TrimOrigin) (kind : TrimKind) : State :=
  s.setVd c
    { s.vd.get c with
      state := .trim, operation := .running Config.trimTime, trim := some { origin, kind }, tracking := .stopped }

/-! ## Start tests -/

/-- The start test of a driver in DRIVE (R139). -/
def State.driveStartTest (s : State) (c : Corner) : State :=
  let v := s.vd.get c
  if v.state = .drive ∧ v.quiet then
    if 0 < v.balance then s.startTrim c .drive .due
    else if 0 < v.pullIn then s.startTrim c .drive .pullIn
    else s
  else s

/-- The start test of a driver in HOLD (R141). -/
def State.holdStartTest (s : State) (c : Corner) : State :=
  let v := s.vd.get c
  if v.state = .hold ∧ 0 < v.balance then s.startTrim c .hold .due else s

/-- The start test of the state a driver is in (R139, R141). -/
def State.startTest (s : State) (c : Corner) : State :=
  match (s.vd.get c).state with
  | .drive => s.driveStartTest c
  | .hold => s.holdStartTest c
  | .off => s
  | .checking => s
  | .armed => s
  | .trim => s
  | .released => s
  | .faulted => s

/-- The start test at a trim timer expiry, after the balance has risen: an expiry that brings the balance to +8 in
DRIVE starts a trim whatever the quiet copy (R140). -/
def State.expiryStartTest (s : State) (c : Corner) : State :=
  if (s.vd.get c).state = .drive ∧ (s.vd.get c).balance = 8 then s.startTrim c .drive .due else s.startTest c

/-- The Corner Controller tells its driver the quiet indication, and a driver in DRIVE makes its start test (R107,
R138, R139). -/
def State.tellQuiet (s : State) (c : Corner) (quiet : Bool) : State :=
  (s.setVd c { s.vd.get c with quiet }).driveStartTest c

/-- A driver takes a demand handed over: it becomes the held demand, and in DRIVE it sets the setpoint (R129). -/
def State.handToDriver (s : State) (c : Corner) (demand : Nat) : State :=
  let v := s.vd.get c
  s.setVd c
    { v with
      heldDemand := demand
      setpoint := if v.state = .drive then (s.map c).current demand else v.setpoint }

end Sys2Proof.Machine
end

