-- ==== Sys2Proof/Machine/ModeOps.lean ====
section
/-! DEFINITION. What one event brings about across blocks: flushes, lock loss, the entries to STARTING, RUN, SAFE and
STANDBY with the orders of each, entry to FAULTED with its escalation, RESTART and full reset. -/

namespace Sys2Proof.Machine

/-! ## Lock loss -/

/-- An odometer as it leaves LOCKED (R11). -/
def Tod.unlocked (o : Tod) : Tod := { o with lock := .unlocked, runCount := 0, frontTravel := 0, rearTravel := 0 }

/-- An odometer as it leaves LOCKED for a cause, with its LOCK report in the marker (R11, R14). -/
def Tod.leaveLocked (o : Tod) (t : Track) (cause : LockCause) : Tod :=
  { o.unlocked with marker := some { track := t, state := .unlocked, cause, position := o.position } }

/-- A track loses lock at MOTION or slip: the odometer leaves LOCKED and the store flushes the track (R11, R41). -/
def State.loseLock (s : State) (t : Track) (cause : LockCause) : State :=
  (s.setTod t ((s.tod.get t).leaveLocked t cause)).setPvs (s.pvs.flush t)

/-! ## Entry to STARTING (R17, R45, R109, R149, R170) -/

/-- A driver at entry to STARTING: OFF to CHECKING, the pull-in count 0, the quiet copy quiet (R131, R138, R149). -/
def Vd.atStarting (v : Vd) : Vd :=
  if v.state = .off then { v.checking with quiet := true } else { v with pullIn := 0, quiet := true }

/-- The part enters STARTING (R170). -/
def State.enterStarting (s : State) : State :=
  let previous := s.mdc.mode
  (((s.setMdc { s.mdc with mode := .starting, checkEnds := PerCorner.of fun _ => none }).mapVd
      fun _ v => v.atStarting).mapCc fun _ x => { x with previousHeight := none }).makeModeReport .start previous

/-! ## Entry to RUN (R38, R109, R135, R149, R171) -/

/-- A driver in ARMED enters DRIVE, and then HOLD if its estimate is at or above hot (R135). -/
def State.armedToRun (s : State) (c : Corner) : State :=
  if (s.vd.get c).state = .armed then
    let entered := (s.startTrimSchedule c).enterDriveAtFloor c
    if entered.isHot c then entered.enterHold c else entered
  else s

/-- A corner at entry to RUN (R109). -/
def Cc.atRun (x : Cc) : Cc := { x with badRun := 0, ownVelocity := 0, previousHeight := none }

/-- A driver's items that entry to RUN sets for every driver (R138, R149). -/
def Vd.atRun (v : Vd) : Vd := { v with pullIn := 0, tracking := .stopped, operation := .stopped, quiet := true }

/-- The part enters RUN from STARTING (R171). -/
def State.enterRun (s : State) : State :=
  let previous := s.mdc.mode
  let ordered :=
    (((s.setMdc { s.mdc with mode := .run }).setPvs { s.pvs with preview := .active }).mapCc
      fun _ x => x.atRun).mapVd fun _ v => v.atRun
  (corners.foldl State.armedToRun ordered).makeModeReport .checksEnded previous

/-! ## Entry to SAFE (R86, R109, R149, R162, R163) -/

/-- A driver at entry to SAFE: RELEASED unless FAULTED (R162). -/
def Vd.atSafe (v : Vd) : Vd :=
  { v.atRest (if v.state = .faulted then .faulted else .released) with quiet := true }

/-- The part enters SAFE (R161 to R163). -/
def State.enterSafe (s : State) : State :=
  let previous := s.mdc.mode
  ((((s.setMdc { s.mdc with mode := .safe }).setPvs { s.pvs.flushBoth with preview := .suspended }).mapVd
      fun _ v => v.atSafe).mapCc fun _ x => { x with previousHeight := none }).makeModeReport .secondFault previous

/-! ## Entry to STANDBY (R17, R86, R109, R149, R167, R172) -/

/-- An odometer at entry to STANDBY: a LOCKED track leaves LOCKED with cause STANDBY, any other is UNLOCKED without a
report; the speed is 0, the interval and the pulse time absent, the timer stopped (R17). -/
def Tod.atStandby (o : Tod) (t : Track) : Tod :=
  { (if o.lock = .locked then o.leaveLocked t .standby else o.unlocked) with
    speed := 0, previousTime := none, lastInterval := none, standstill := .stopped }

/-- A driver at entry to STANDBY (R149). -/
def Vd.atStandby (v : Vd) : Vd := { v.atRest .off with quiet := true }

/-- The part enters STANDBY (R172): the pending switch is completed at the corner positions of this moment (R86). -/
def State.enterStandby (s : State) : State :=
  let previous := s.mdc.mode
  (((((s.switchAtStandby.setMdc { s.mdc with mode := .standby, faultedCount := 0 }).mapTod
      fun t o => o.atStandby t).setPvs { s.pvs.flushBoth with preview := .suspended }).mapVd
      fun _ v => v.atStandby).mapCc fun _ x => { x with previousHeight := none }).makeModeReport
    .standbyRequest previous

/-! ## Ends of checks, and entry to FAULTED (R153 to R161, R171) -/

/-- A driver tells the Mode Controller that its START check has ended (R171). -/
def State.noteCheckEnd (s : State) (c : Corner) (r : CheckResult) : State :=
  s.setMdc { s.mdc with checkEnds := s.mdc.checkEnds.set c (some r) }

/-- The check ends hold four corners, of which at most one is FAULTED (R171). -/
def Mdc.checksPassed (m : Mdc) : Bool :=
  corners.all (fun c => (m.checkEnds.get c).isSome)
    && decide ((corners.filter fun c => m.checkEnds.get c = some .faulted).length ≤ 1)

/-- In STARTING, the part enters RUN when the fourth check has ended with at most one result FAULTED (R171). -/
def State.runIfChecked (s : State) : State := if s.mdc.mode = .starting ∧ s.mdc.checksPassed then s.enterRun else s

/-- The fault record written at an entry to FAULTED (R154). -/
def State.faultRecord (s : State) (c : Corner) (kind : FaultKind) (measured : Nat) : FaultRecord :=
  { kind, state := (s.vd.get c).state, mode := s.mdc.mode, measured, setpoint := (s.vd.get c).setpoint
    position := s.cornerPosition c }

/-- The retry count after one more entry to FAULTED (R155). -/
def Vd.nextRetry (v : Vd) : Nat := if v.retryCount < 3 then v.retryCount + 1 else 3

/-- A driver as entry to FAULTED leaves it: released, its operation ended, with its record, retry count and report
(R153 steps 1 to 6). -/
def Vd.fault (v : Vd) (c : Corner) (record : FaultRecord) : Vd :=
  { v.atRest .faulted with
    faultRecord := some record
    retryCount := v.nextRetry
    faultMarker := some { corner := c, record, retryCount := v.nextRetry } }

/-- The Mode Controller is told of an entry to FAULTED: the faulted count rises, and a START check that the fault has
ended is noted (R153 step 7, R160). -/
def State.tellFaulted (s : State) (c : Corner) (former : DriverState) : State :=
  let counted := s.setMdc { s.mdc with faultedCount := s.mdc.faultedCount + 1 }
  if former = .checking ∧ s.mdc.mode = .starting then counted.noteCheckEnd c .faulted else counted

/-- The Mode Controller's answer to an entry to FAULTED: SAFE where the faulted count has reached two, otherwise RUN
where the fourth check has ended (R161, R171). -/
def State.escalate (s : State) : State := if 2 ≤ s.mdc.faultedCount then s.enterSafe else s.runIfChecked

/-- A driver that has found a fault enters FAULTED (R153); the corner's switch is made before the Mode Controller is
told (assumption log 18). -/
def State.enterFaulted (s : State) (c : Corner) (kind : FaultKind) (measured : Nat) : State :=
  let former := (s.vd.get c).state
  (((s.setVd c ((s.vd.get c).fault c (s.faultRecord c kind measured))).driverLeft c former).tellFaulted c
    former).escalate

/-! ## RESTART and full reset (R173, R174) -/

/-- A driver at RESTART: its full-reset values, but the measured current is kept (R149, R167). -/
def Vd.atRestart (v : Vd) : Vd := { Vd.reset with measured := v.measured }

/-- CFS at RESTART: groups, locks and variant are kept, the profile selection returns to A (R79, R173, R177). -/
def Cfs.atRestart (f : Cfs) : Cfs := { f with active := .a, pendingProfile := none, profileMarker := none }

/-- Every owner but LIF applies RESTART (R173). -/
def State.applyRestart (s : State) : State :=
  ((((((s.setMdc Mdc.reset).setPvs Store.reset).setCfs s.cfs.atRestart).mapTod fun _ _ => Tod.reset).mapCc
    fun _ _ => Cc.reset).mapVd fun _ v => v.atRestart)

/-- Every block takes its full-reset values (R174). The commands that wait are still to come from outside. -/
def State.applyFullReset (s : State) (held : Bool) : State :=
  { State.reset with pending := s.pending, resetHeld := held }

end Sys2Proof.Machine
end

