-- ==== Sys2Proof/Machine/LinkOps.lean ====
section
/-! DEFINITION. The Link Interface's shared operations: the exchange, the silence timer, the arrival of a frame, and the
taking of a request with the placing of its reply (R189 to R195). -/

namespace Sys2Proof.Machine

/-! ## The queue and the exchange -/

/-- A record is placed at the tail of the queue (R192). -/
def State.place (s : State) (r : Record) : State := s.setLif { s.lif with queue := s.lif.queue ++ [r] }

/-- The code of a frame outcome in the status byte (R199). -/
def FrameOutcome.code : FrameOutcome → Nat
  | .accepted => 0
  | .crcError => 1
  | .malformed => 2
  | .noRoom => 3

/-- The link status byte (R189, R199). -/
def Lif.statusByte (l : Lif) : Byte := byteOfNat (l.previous.code * 64 + l.queue.length)

/-- What the assertion of select fixes, as the state stands (R189). -/
def Lif.assertion (l : Lif) : Exchange := { status := l.statusByte, copy := l.queue.head? }

/-- The exchange that a release of select ends: the one in progress, or, where no assertion was sent before it, one
whose assertion falls at this moment (assumption log 6). -/
def Lif.released (l : Lif) : Exchange := l.exchange.getD l.assertion

/-- The exchange ends with an outcome for the next status byte (R190). -/
def State.endExchange (s : State) (o : FrameOutcome) : State := s.setLif { s.lif with previous := o, exchange := none }

/-- The silence timer as a well-formed frame restarts it: with the timeout of group 4 while that is SET, stopped while
it is UNSET (R195). -/
def State.silenceRestarted (s : State) : Timer :=
  match s.cfs.limits with
  | some l => .running l.silenceTimeout
  | none => .stopped

/-- The arrival of a well-formed frame at the store: in RUN with preview SUSPENDED, preview becomes ACTIVE and a MODE
report of preview resumed is made (R40). -/
def State.arriveAtStore (s : State) : State :=
  if s.mdc.mode = .run ∧ s.pvs.preview = .suspended then
    (s.setPvs { s.pvs with preview := .active }).makeModeReport .previewResumed s.mdc.mode
  else s

/-- Steps 1 and 2 of R191: the silence timer is restarted and the arrival is handed to the store. -/
def State.frameArrives (s : State) : State :=
  (s.setLif { s.lif with silence := s.silenceRestarted }).arriveAtStore

/-- The release of select after a frame that is not taken (R190): only the previous-frame outcome changes. -/
def State.refuseFrame (s : State) (o : FrameOutcome) : State := s.endExchange o

/-- Step 3 of R191: a NO_ROOM frame restarts the silence timer and is handed to the store as an arrival, and is not
delivered. -/
def State.noRoomFrame (s : State) : State := (s.endExchange .noRoom).frameArrives

/-- The owner's judgement of a request, and the reply placed at it (R191 step 6). -/
def State.answer (s : State) (judge : State → State × Reply) : State := (judge s).1.place (.reply (judge s).2)

/-- The state at the delivery of a request: the frame is ACCEPTED, and steps 1 and 2 of R191 are done. -/
def State.delivered (s : State) : State := (s.endExchange .accepted).frameArrives

/-- A request of a permitted body length is taken: NO_ROOM while the queue holds 32 records, delivered and answered
otherwise (R190 findings 6 and 7, R191). -/
def State.takeRequest (s : State) (judge : State → State × Reply) : State :=
  s.unlessHeld fun s =>
    if Config.queueCapacity ≤ s.lif.queue.length then s.noRoomFrame
    else s.delivered.answer judge

/-- A request whose body length is `length`: a length not permitted for its kind is MALFORMED (R190 finding 4). -/
def State.takeRequestOfLength (s : State) (k : RequestKind) (length : Nat) (judge : State → State × Reply) : State :=
  if k.permits length then s.takeRequest judge else s.unlessHeld fun s => s.refuseFrame .malformed

end Sys2Proof.Machine
end

