-- ==== Sys2Proof/Machine/Operands.lean ====
section
/-! DEFINITION. The operand forms: what the code bytes and bit sets of R199 name, and the segment record read from
the body of PREVIEW (R18, R28). A code that names nothing gives none, which the owner refuses RANGE. -/

namespace Sys2Proof.Machine

/-- Corner codes (R199). -/
def cornerOf (b : Byte) : Option Corner :=
  if b = 0 then some .fl else if b = 1 then some .fr else if b = 2 then some .rl else if b = 3 then some .rr else none

/-- Track codes (R199). -/
def trackOf (b : Byte) : Option Track := if b = 0 then some .left else if b = 1 then some .right else none

/-- Direction codes (R199). -/
def directionOf (b : Byte) : Option Direction :=
  if b = 0 then some .forward else if b = 1 then some .reverse else if b = 2 then some .unknown else none

/-- Profile codes (R199). -/
def profileOf (b : Byte) : Option ProfileName := if b = 0 then some .a else if b = 1 then some .b else none

/-- Kind codes (R199). -/
def kindOf (b : Byte) : Option Kind :=
  if b = 0 then some .smooth else if b = 1 then some .bump else if b = 2 then some .pothole
  else if b = 3 then some .stepUp else if b = 4 then some .stepDown else if b = 5 then some .rough
  else if b = 6 then some .unknown else none

/-- Combine mode codes (R199). -/
def combineOf (b : Byte) : Option CombineMode :=
  if b = 0 then some .replace else if b = 1 then some .max else if b = 2 then some .min else none

/-- Substitution codes (R199). -/
def substitutionOf (b : Byte) : Option Substitution :=
  if b = 0 then some .none else if b = 1 then some .axlePartner else none

/-- Group numbers (R177). -/
def groupOf (b : Byte) : Option GroupId :=
  if b = 0 then some .valveMaps else if b = 1 then some .profileA else if b = 2 then some .profileB
  else if b = 3 then some .geometry else if b = 4 then some .limits else none

/-- The group set of a byte: bit n for group n; none where a bit names nothing (R199). -/
def groupSetOf (b : Byte) : Option (PerGroup Bool) :=
  if b.toNat < 32 then some ⟨b.getLsbD 0, b.getLsbD 1, b.getLsbD 2, b.getLsbD 3, b.getLsbD 4⟩ else none

/-- The accrued bit set of a byte; none where a bit names nothing (R199). -/
def bitSetOf (b : Byte) : Option (PerBit Bool) :=
  if b.toNat < 32 then some ⟨b.getLsbD 0, b.getLsbD 1, b.getLsbD 2, b.getLsbD 3, b.getLsbD 4⟩ else none

/-- A height in mm lies in its range (R18). -/
def heightInRange (h : Int) : Bool := decide (-100 ≤ h) && decide (h ≤ 100)

/-- The report bit of an options byte (R199). -/
def reportBit (options : Byte) : Bool := options.getLsbD 0

/-- The override as carried: read when its option bit is set (R199). -/
def overrideOf (r : SegmentRecord) : Option Override :=
  if r.options.getLsbD 1 then some ⟨r.overrideFront.toNat, r.overrideRear.toNat⟩ else none

/-- The rough intensity as carried: read when its option bit is set (R199). -/
def roughIntensityOf (r : SegmentRecord) : Option Nat :=
  if r.options.getLsbD 2 then some r.roughIntensity.toNat else none

/-- The range items of check 4 that the record alone decides (R28): every item but the look-ahead. -/
def fieldsInRange (s : Segment) (options : Byte) : Bool :=
  s.tag != 0
    && decide (10 ≤ s.length) && decide (s.length ≤ 2000)
    && heightInRange s.amplitude
    && decide (s.confidence ≤ 15)
    && decide (options.toNat < 8)
    && s.override.all (fun o => decide (o.front ≤ 1000) && decide (o.rear ≤ 1000))
    && s.roughIntensity.all (fun i => decide (i ≤ 15) && decide (s.kind = .rough))
    && decide (s.samples.length ≤ 8) && s.samples.all heightInRange

/-- The segment that a record carries, where every field lies in its range (R28). -/
def segmentOf (r : SegmentRecord) : Option Segment :=
  match trackOf r.track, kindOf r.kind with
  | some track, some kind =>
    let s : Segment :=
      { tag := r.tag, track, kind, start := r.start, length := r.length.toNat, amplitude := r.amplitude.toInt,
        confidence := r.confidence.toNat, report := reportBit r.options, override := overrideOf r,
        roughIntensity := roughIntensityOf r, samples := r.samples.map BitVec.toInt }
    if fieldsInRange s r.options then some s else none
  | _, _ => none

end Sys2Proof.Machine
end

