-- ==== Sys2Proof/Machine/Conditions.lean ====
section
/-! DEFINITION. Update Conditions and Origin Records (chapter 06): SET_REPORTING, CLEAR_CONDITIONS, READ_ORIGIN. -/

namespace Sys2Proof.Machine

/-! ## SET_REPORTING (R115, R117, R118) -/

/-- A corner with its report enable set replaced, and each UNREPORTED bit that is now enabled made WAITING with a copy
of the origin record as it stands (R115, R117). -/
def Cc.report (x : Cc) (enabled : PerBit Bool) : Cc :=
  { x with enabled, bits := PerBit.of fun b => (x.bits.get b).enable (enabled.get b) x.origin }

/-- SET_REPORTING is judged (R115). -/
def judgeSetReporting (corner bits : Byte) (s : State) : State × Reply :=
  match cornerOf corner with
  | none => (s, .setReporting .range corner PerBit.noBits)
  | some c =>
    match bitSetOf bits with
    | none => (s, .setReporting .range corner (s.cc.get c).enabled)
    | some enabled => (s.setCc c ((s.cc.get c).report enabled), .setReporting .ok corner enabled)

/-- SET_REPORTING. -/
def takeSetReporting (corner bits : Byte) (s : State) : State := s.takeRequest (judgeSetReporting corner bits)

/-- SET_REPORTING (R115). -/
def execSetReporting (corner bits : Byte) (s : State) : Host.Outcome State Fault Refusal :=
  .next (takeSetReporting corner bits s)

/-! ## CLEAR_CONDITIONS (R122) -/

/-- The bit states with each named bit CLEAR, its waiting report dropped (R122). -/
def clearBits (bits : PerBit BitState) (named : PerBit Bool) : PerBit BitState :=
  PerBit.of fun b => if named.get b then .clear else bits.get b

/-- Every accrued bit is CLEAR (R122). -/
def allClear (bits : PerBit BitState) : Bool := accruedBits.all fun b => !(bits.get b).isSet

/-- A corner with the named bits CLEAR; its origin record is emptied where every bit is then CLEAR (R122). -/
def Cc.clear (x : Cc) (named : PerBit Bool) : Cc :=
  { x with
    bits := clearBits x.bits named
    origin := if allClear (clearBits x.bits named) then OriginRecord.empty else x.origin }

/-- CLEAR_CONDITIONS is judged (R122). -/
def judgeClearConditions (corner bits : Byte) (s : State) : State × Reply :=
  match cornerOf corner with
  | none => (s, .clearConditions .range corner PerBit.noBits)
  | some c =>
    match bitSetOf bits with
    | none => (s, .clearConditions .range corner (accruedSet (s.cc.get c).bits))
    | some named =>
      (s.setCc c ((s.cc.get c).clear named),
        .clearConditions .ok corner (accruedSet ((s.cc.get c).clear named).bits))

/-- CLEAR_CONDITIONS. -/
def takeClearConditions (corner bits : Byte) (s : State) : State := s.takeRequest (judgeClearConditions corner bits)

/-- CLEAR_CONDITIONS (R122). -/
def execClearConditions (corner bits : Byte) (s : State) : Host.Outcome State Fault Refusal :=
  .next (takeClearConditions corner bits s)

/-! ## READ_ORIGIN (R121) -/

/-- READ_ORIGIN is judged (R121): it changes no state. -/
def judgeReadOrigin (corner : Byte) (s : State) : State × Reply :=
  match cornerOf corner with
  | none => (s, .readOrigin .range corner PerBit.noBits OriginRecord.empty)
  | some c => (s, .readOrigin .ok corner (accruedSet (s.cc.get c).bits) (s.cc.get c).origin)

/-- READ_ORIGIN. -/
def takeReadOrigin (corner : Byte) (s : State) : State := s.takeRequest (judgeReadOrigin corner)

/-- READ_ORIGIN (R121). -/
def execReadOrigin (corner : Byte) (s : State) : Host.Outcome State Fault Refusal := .next (takeReadOrigin corner s)

end Sys2Proof.Machine
end

