-- ==== Sys2Proof/Machine/Groups.lean ====
section
/-! DEFINITION. The contents of the five configuration groups as bytes of SET_GROUP and READ_GROUP: reading them,
checking every item, and writing them back (R178 to R180, R72, R73, layouts of R199). Offsets count from the first byte
of the contents, which is offset 1 of the SET_GROUP body. -/

namespace Sys2Proof.Machine

/-- `low ≤ n ≤ high`. -/
def within (low high n : Nat) : Bool := decide (low ≤ n) && decide (n ≤ high)

/-! ## Group 0, VALVE_MAPS (R178) -/

/-- The point of a map at an offset. -/
def pointAt (b : List Byte) (o : Nat) : MapPoint := { demand := nat2At b o, current := nat2At b (o + 2) }

/-- The map at an offset. -/
def mapAt (b : List Byte) (o : Nat) : ValveMap :=
  { p1 := pointAt b o, p2 := pointAt b (o + 4), p3 := pointAt b (o + 8), p4 := pointAt b (o + 12)
    p5 := pointAt b (o + 16), p6 := pointAt b (o + 20), p7 := pointAt b (o + 24), p8 := pointAt b (o + 28)
    p9 := pointAt b (o + 32), holdCurrent := nat2At b (o + 36), coldResistance := nat2At b (o + 38)
    shortLimit := nat2At b (o + 40), openLimit := nat2At b (o + 42) }

/-- The bytes of one map. -/
def mapLength : Nat := 44

/-- The nine points of a map, in order. -/
def ValveMap.points (m : ValveMap) : List MapPoint := [m.p1, m.p2, m.p3, m.p4, m.p5, m.p6, m.p7, m.p8, m.p9]

/-- From point to point the demands rise strictly and the currents do not rise (R178). -/
def pointsOrdered : List MapPoint → Bool
  | [] => true
  | [_] => true
  | p :: q :: rest =>
    decide (p.demand < q.demand) && decide (q.current ≤ p.current) && pointsOrdered (q :: rest)

/-- Every current of a map is at most `cap` (R178, R186). -/
def ValveMap.currentsAtMost (m : ValveMap) (cap : Nat) : Bool :=
  m.points.all (fun p => decide (p.current ≤ cap)) && decide (m.holdCurrent ≤ cap)

/-- The check of a map, its currents against `cap` (R178). -/
def ValveMap.passes (m : ValveMap) (cap : Nat) : Bool :=
  decide (m.p1.demand = 0) && decide (m.p9.demand = 1000) && pointsOrdered m.points && m.currentsAtMost cap
    && within 100 800 m.coldResistance && within 1 (m.coldResistance - 1) m.shortLimit
    && within (m.coldResistance + 1) 9998 m.openLimit

/-- The maps of an axle. -/
def AxleMaps.maps : AxleMaps → List ValveMap
  | .shared m => [m]
  | .separate l r => [l, r]

/-- The two, three or four maps of group 0, in the order of R178. -/
def ValveMaps.maps (v : ValveMaps) : List ValveMap := v.front.maps ++ v.rear.maps

/-- The number of maps that an axle's flag calls for (R178). -/
def mapsOfFlag (separate : Bool) : Nat := if separate then 2 else 1

/-- The number of maps that group 3 calls for (R178). -/
def Geometry.mapCount (g : Geometry) : Nat := mapsOfFlag g.separateFront + mapsOfFlag g.separateRear

/-- The maps of one axle, read from an offset. -/
def axleAt (b : List Byte) (o : Nat) (separate : Bool) : AxleMaps :=
  if separate then .separate (mapAt b o) (mapAt b (o + mapLength)) else .shared (mapAt b o)

/-- The contents of group 0, for the flags of group 3. -/
def valveMapsAt (b : List Byte) (g : Geometry) : ValveMaps :=
  { front := axleAt b 0 g.separateFront, rear := axleAt b (mapLength * mapsOfFlag g.separateFront) g.separateRear }

/-- Group 0 as carried, where it has the number of maps that group 3 calls for and every map passes (R178). -/
def readValveMaps (b : List Byte) (g : Geometry) (cap : Nat) : Option ValveMaps :=
  if b.length = mapLength * g.mapCount ∧ (valveMapsAt b g).maps.all (fun m => m.passes cap) then
    some (valveMapsAt b g)
  else none

/-- The bytes of a point. -/
def MapPoint.bytes (p : MapPoint) : List Byte := bytesOfNat p.demand ++ bytesOfNat p.current

/-- The bytes of a map. -/
def ValveMap.bytes (m : ValveMap) : List Byte :=
  m.points.flatMap MapPoint.bytes ++ bytesOfNat m.holdCurrent ++ bytesOfNat m.coldResistance
    ++ bytesOfNat m.shortLimit ++ bytesOfNat m.openLimit

/-! ## Groups 1 and 2, the profiles (R72, R73, R180) -/

/-- The row of the response table at an offset, its combine mode already read. -/
def rowWith (b : List Byte) (o : Nat) (combine : CombineMode) : ResponseRow :=
  { frontBase := nat2At b o, rearBase := nat2At b (o + 2), slope := natAt b (o + 4), combine
    leadExtension := nat2At b (o + 6), trail := nat2At b (o + 8), roughStep := natAt b (o + 10) }

/-- The row at an offset; none where its combine mode names nothing. -/
def rowAt (b : List Byte) (o : Nat) : Option ResponseRow := (combineOf (byteAt b (o + 5))).map (rowWith b o)

/-- The check of a row (R73). -/
def ResponseRow.passes (w : ResponseRow) : Bool :=
  within 0 1000 w.frontBase && within 0 1000 w.rearBase && within 0 20 w.slope && within 0 500 w.leadExtension
    && within 0 500 w.trail && within 0 50 w.roughStep

/-- The seven kinds in the order of their codes (R199). -/
def kinds : List Kind := [.smooth, .bump, .pothole, .stepUp, .stepDown, .rough, .unknown]

/-- The check of a profile (R72, R73, R180). -/
def Profile.passes (p : Profile) : Bool :=
  within 0 1000 p.floor && within p.floor 1000 p.ceiling && within 0 4000 p.gain && within 1 1000 p.rateLimit
    && within 5 60 p.responseTime && within 0 15 p.threshold && kinds.all (fun k => (p.rows.get k).passes)

/-- The rows of a profile, from offset 10, eleven bytes each. -/
def rowsAt (b : List Byte) : Option (PerKind ResponseRow) :=
  match rowAt b 10, rowAt b 21, rowAt b 32, rowAt b 43, rowAt b 54, rowAt b 65, rowAt b 76 with
  | some smooth, some bump, some pothole, some stepUp, some stepDown, some rough, some unknown =>
    some { smooth, bump, pothole, stepUp, stepDown, rough, unknown }
  | _, _, _, _, _, _, _ => none

/-- The contents of a profile group with its rows. -/
def profileWith (b : List Byte) (rows : PerKind ResponseRow) : Profile :=
  { floor := nat2At b 0, ceiling := nat2At b 2, gain := nat2At b 4, rateLimit := nat2At b 6
    responseTime := natAt b 8, threshold := natAt b 9, rows }

/-- A profile group as carried, where it has a profile's length and every item passes. -/
def readProfile (b : List Byte) : Option Profile :=
  match rowsAt b with
  | none => none
  | some rows => if b.length = 87 ∧ (profileWith b rows).passes then some (profileWith b rows) else none

/-- The code of a combine mode (R199). -/
def CombineMode.code : CombineMode → Nat
  | .replace => 0
  | .max => 1
  | .min => 2

/-- The bytes of a row. -/
def ResponseRow.bytes (w : ResponseRow) : List Byte :=
  bytesOfNat w.frontBase ++ bytesOfNat w.rearBase ++ [byteOfNat w.slope, byteOfNat w.combine.code]
    ++ bytesOfNat w.leadExtension ++ bytesOfNat w.trail ++ [byteOfNat w.roughStep]

/-- The bytes of a profile group. -/
def Profile.bytes (p : Profile) : List Byte :=
  bytesOfNat p.floor ++ bytesOfNat p.ceiling ++ bytesOfNat p.gain ++ bytesOfNat p.rateLimit
    ++ [byteOfNat p.responseTime, byteOfNat p.threshold] ++ kinds.flatMap (fun k => (p.rows.get k).bytes)

/-! ## Group 3, GEOMETRY (R179) -/

/-- A corner entry at an offset; none where its substitution names nothing. -/
def cornerEntryAt (b : List Byte) (o : Nat) : Option CornerGeometry :=
  (substitutionOf (byteAt b (o + 5))).map fun substitution =>
    { low := (halfAt b o).toInt, high := (halfAt b (o + 2)).toInt, scale := natAt b (o + 4), substitution }

/-- The four corner entries, from offset 14, six bytes each. -/
def cornerEntriesAt (b : List Byte) : Option (PerCorner CornerGeometry) :=
  match cornerEntryAt b 14, cornerEntryAt b 20, cornerEntryAt b 26, cornerEntryAt b 32 with
  | some fl, some fr, some rl, some rr => some { fl, fr, rl, rr }
  | _, _, _, _ => none

/-- The contents of group 3 with its corner entries. -/
def geometryWith (b : List Byte) (entries : PerCorner CornerGeometry) : Geometry :=
  { wheelbase := nat2At b 0
    pulses := ⟨⟨nat2At b 2, nat2At b 4⟩, ⟨nat2At b 6, nat2At b 8⟩⟩
    lockCount := natAt b 10, slipWindow := nat2At b 11, slipThreshold := natAt b 13, corners := entries
    separateFront := (byteAt b 38).getLsbD 0, separateRear := (byteAt b 38).getLsbD 1 }

/-- The check of a corner entry (R179). -/
def CornerGeometry.passes (g : CornerGeometry) : Bool := decide (g.low < g.high) && within 1 100 g.scale

/-- The check of the pulse lengths of a track (R179). -/
def PulseLengths.passes (p : PulseLengths) : Bool := within 4000 64000 p.front && within 4000 64000 p.rear

/-- The check of group 3 (R179). -/
def Geometry.passes (g : Geometry) : Bool :=
  within 2400 3600 g.wheelbase && tracks.all (fun t => (g.pulses.get t).passes) && within 8 64 g.lockCount
    && within 1000 20000 g.slipWindow && within 2 20 g.slipThreshold
    && Sys2Proof.Machine.corners.all (fun c => (g.corners.get c).passes)

/-- Group 3 as carried, where it has its length, its flags byte sets no other bit, and every item passes. -/
def readGeometry (b : List Byte) : Option Geometry :=
  match cornerEntriesAt b with
  | none => none
  | some entries =>
    if b.length = 39 ∧ natAt b 38 < 4 ∧ (geometryWith b entries).passes then some (geometryWith b entries) else none

/-- The code of a substitution (R199). -/
def Substitution.code : Substitution → Nat
  | .none => 0
  | .axlePartner => 1

/-- The bytes of a corner entry. -/
def CornerGeometry.bytes (g : CornerGeometry) : List Byte :=
  bytesOfInt g.low ++ bytesOfInt g.high ++ [byteOfNat g.scale, byteOfNat g.substitution.code]

/-- The bytes of group 3. -/
def Geometry.bytes (g : Geometry) : List Byte :=
  bytesOfNat g.wheelbase ++ tracks.flatMap (fun t => bytesOfNat (g.pulses.get t).front ++ bytesOfNat (g.pulses.get t).rear)
    ++ [byteOfNat g.lockCount] ++ bytesOfNat g.slipWindow ++ [byteOfNat g.slipThreshold]
    ++ Sys2Proof.Machine.corners.flatMap (fun c => (g.corners.get c).bytes)
    ++ [byteOfNat (bit g.separateFront 0 + bit g.separateRear 1)]

/-! ## Group 4, LIMITS (R180) -/

/-- The contents of group 4. -/
def limitsAt (b : List Byte) : Limits :=
  { warm := natAt b 0, hot := natAt b 1, overcurrent := nat2At b 2, silenceTimeout := nat2At b 4
    trimInterval := nat2At b 6, trackingBand := nat2At b 8, trackingWindow := natAt b 10 }

/-- The check of group 4; the threshold against the current cap where the variant record is WRITTEN (R180). -/
def Limits.passes (l : Limits) (variant : Option Variant) : Bool :=
  within 80 160 l.warm && within 100 180 l.hot && decide (l.warm + 10 ≤ l.hot) && within 1000 2200 l.overcurrent
    && variant.all (fun v => decide (v.cap + 100 ≤ l.overcurrent)) && within 50 1000 l.silenceTimeout
    && within 100 2000 l.trimInterval && within 20 400 l.trackingBand && within 5 100 l.trackingWindow

/-- Group 4 as carried, where it has its length and every item passes. -/
def readLimits (b : List Byte) (variant : Option Variant) : Option Limits :=
  if b.length = 11 ∧ (limitsAt b).passes variant then some (limitsAt b) else none

/-- The bytes of group 4. -/
def Limits.bytes (l : Limits) : List Byte :=
  [byteOfNat l.warm, byteOfNat l.hot] ++ bytesOfNat l.overcurrent ++ bytesOfNat l.silenceTimeout
    ++ bytesOfNat l.trimInterval ++ bytesOfNat l.trackingBand ++ [byteOfNat l.trackingWindow]

/-! ## Any group -/

/-- The cap against which map currents are checked: the current cap, or 1,600 mA while the variant record is unwritten
(R178). -/
def State.mapCap (s : State) : Nat :=
  match s.cfs.variant with
  | some v => v.cap
  | none => Config.maxCoilCurrent

/-- Group 0 as carried, checked against the flags of group 3 (R178). -/
def State.readMaps (s : State) (b : List Byte) : Option ValveMaps :=
  match s.cfs.geometry with
  | none => none
  | some g => readValveMaps b g s.mapCap

/-- The contents carried for a group, where every item passes its check (R178 to R180). -/
def State.readContents (s : State) (g : GroupId) (b : List Byte) : Option GroupContents :=
  match g with
  | .valveMaps => (s.readMaps b).map .valveMaps
  | .profileA => (readProfile b).map .profile
  | .profileB => (readProfile b).map .profile
  | .geometry => (readGeometry b).map .geometry
  | .limits => (readLimits b s.cfs.variant).map .limits

/-- The bytes of a group's contents, in the layout of the SET_GROUP body from its offset 1 (R199). -/
def GroupContents.bytes : GroupContents → List Byte
  | .valveMaps v => v.maps.flatMap ValveMap.bytes
  | .profile p => p.bytes
  | .geometry g => g.bytes
  | .limits l => l.bytes

end Sys2Proof.Machine
end

