-- ==== Sys2Proof/Machine/Configuration.lean ====
section
/-! DEFINITION. Configuration Groups (chapter 10): SET_GROUP, READ_GROUP, SET_LOCKS, WRITE_VARIANT, IDENTIFY. -/

namespace Sys2Proof.Machine

/-! ## SET_GROUP (R181, R182) -/

/-- The groups that are set only in CONFIG and STANDBY (R181 finding 3). -/
def GroupId.hardware : GroupId → Bool
  | .valveMaps => true
  | .geometry => true
  | .limits => true
  | .profileA => false
  | .profileB => false

/-- Findings 2 to 6 of R181; OK where none of them holds. -/
def State.setGroupFinding (s : State) (g : GroupId) : ReplyCode :=
  if s.mdc.mode = .safe then .mode
  else if g.hardware ∧ (s.mdc.mode = .starting ∨ s.mdc.mode = .run) then .mode
  else if s.groupProtected g then .locked
  else if g = .geometry ∧ s.cfs.valveMaps.isSome ∧ s.cfs.locks.valveMaps then .locked
  else if g = .valveMaps ∧ s.cfs.geometry = none then .order
  else .ok

/-- The groups with the contents of one replaced; group 3 makes group 0 UNSET (R182). -/
def Cfs.store (f : Cfs) (g : GroupId) (contents : GroupContents) : Cfs :=
  match g, contents with
  | .valveMaps, .valveMaps m => { f with valveMaps := some m }
  | .profileA, .profile p => { f with profileA := some p }
  | .profileB, .profile p => { f with profileB := some p }
  | .geometry, .geometry x => { f with geometry := some x, valveMaps := none }
  | .limits, .limits l => { f with limits := some l }
  | _, _ => f

/-- SET_GROUP for a group, after finding 1 (R181). A length that does not match the group number is refused RANGE (R198); that
it is found as an item that fails its check is, at finding 7, is the model's choice (assumption log 37). -/
def State.setGroup (s : State) (g : GroupId) (b : List Byte) : State × ReplyCode :=
  match s.setGroupFinding g, s.readContents g b with
  | .ok, some contents => (s.setCfs (s.cfs.store g contents), .ok)
  | .ok, none => (s, .range)
  | code, _ => (s, code)

/-- SET_GROUP is judged (R181). -/
def judgeSetGroup (group : Byte) (contents : List Byte) (s : State) : State × Reply :=
  match groupOf group with
  | none => (s, .setGroup .range group s.groupsSet)
  | some g => ((s.setGroup g contents).1, .setGroup (s.setGroup g contents).2 group (s.setGroup g contents).1.groupsSet)

/-- SET_GROUP; the body holds the group number and the contents. -/
def takeSetGroup (group : Byte) (contents : List Byte) (s : State) : State :=
  s.takeRequestOfLength .setGroup (contents.length + 1) (judgeSetGroup group contents)

/-- SET_GROUP (R181). -/
def execSetGroup (group : Byte) (contents : List Byte) (s : State) : Host.Outcome State Fault Refusal :=
  .next (takeSetGroup group contents s)

/-! ## READ_GROUP (R183) -/

/-- The contents of a group, if it is SET (R177). -/
def Cfs.contents (f : Cfs) : GroupId → Option GroupContents
  | .valveMaps => f.valveMaps.map .valveMaps
  | .profileA => f.profileA.map .profile
  | .profileB => f.profileB.map .profile
  | .geometry => f.geometry.map .geometry
  | .limits => f.limits.map .limits

/-- READ_GROUP is judged (R183): it changes no state. A reply of RANGE names no group of which to report (assumption
log 20). -/
def judgeReadGroup (group : Byte) (s : State) : State × Reply :=
  match groupOf group with
  | none => (s, .readGroup .range group false false none)
  | some g => (s, .readGroup .ok group (s.cfs.locks.get g) (s.groupInUse g) (s.cfs.contents g))

/-- READ_GROUP. -/
def takeReadGroup (group : Byte) (s : State) : State := s.takeRequest (judgeReadGroup group)

/-- READ_GROUP (R183). -/
def execReadGroup (group : Byte) (s : State) : Host.Outcome State Fault Refusal := .next (takeReadGroup group s)

/-! ## SET_LOCKS (R185) -/

/-- A group in the present set is absent from the new set (R185 finding 2). -/
def State.removesLock (s : State) (locks : PerGroup Bool) : Bool :=
  groupIds.any fun g => s.cfs.locks.get g && !locks.get g

/-- SET_LOCKS is judged (R185). -/
def judgeSetLocks (locks : Byte) (s : State) : State × Reply :=
  match groupSetOf locks with
  | none => (s, .setLocks .range s.cfs.locks)
  | some set =>
    if s.removesLock set ∧ s.mdc.mode ≠ .config then (s, .setLocks .mode s.cfs.locks)
    else (s.setCfs { s.cfs with locks := set }, .setLocks .ok set)

/-- SET_LOCKS. -/
def takeSetLocks (locks : Byte) (s : State) : State := s.takeRequest (judgeSetLocks locks)

/-- SET_LOCKS (R185). -/
def execSetLocks (locks : Byte) (s : State) : Host.Outcome State Fault Refusal := .next (takeSetLocks locks s)

/-! ## WRITE_VARIANT (R186) -/

/-- The current cap classes of the part, in mA (R186). -/
def capClasses : List Nat := [1200, 1400, 1600]

/-- A cap makes group 0 UNSET: it is SET and a current of a map exceeds the cap (R186). -/
def Cfs.mapsExceed (f : Cfs) (cap : Nat) : Bool :=
  f.valveMaps.any fun v => v.maps.any fun m => !m.currentsAtMost cap

/-- A cap makes group 4 UNSET: it is SET and its overcurrent threshold is below the cap plus 100 mA (R186). -/
def Cfs.thresholdBelow (f : Cfs) (cap : Nat) : Bool := f.limits.any fun l => decide (l.overcurrent < cap + 100)

/-- The write would make an explicitly locked group UNSET (R186 finding 4). -/
def Cfs.variantLocked (f : Cfs) (cap : Nat) : Bool :=
  (f.mapsExceed cap && f.locks.valveMaps) || (f.thresholdBelow cap && f.locks.limits)

/-- The finding of R186. -/
def State.variantFinding (s : State) (cap : Nat) : ReplyCode :=
  if s.cfs.variant.isSome then .written
  else if s.mdc.mode ≠ .config then .mode
  else if ¬capClasses.contains cap then .range
  else if s.cfs.variantLocked cap then .locked
  else .ok

/-- The variant record is written, and the groups that the cap breaks become UNSET (R186). -/
def Cfs.writeVariant (f : Cfs) (code : BitVec 64) (cap : Nat) : Cfs :=
  { f with
    variant := some { code, cap }
    valveMaps := if f.mapsExceed cap then none else f.valveMaps
    limits := if f.thresholdBelow cap then none else f.limits }

/-- The reply to WRITE_VARIANT, as the record and the groups stand (R186). -/
def State.variantReply (s : State) (code : ReplyCode) : Reply := .writeVariant code s.cfs.variant s.groupsSet

/-- WRITE_VARIANT is judged (R186). -/
def judgeWriteVariant (code : BitVec 64) (capClass : Half) (s : State) : State × Reply :=
  if s.variantFinding capClass.toNat = .ok then
    (s.setCfs (s.cfs.writeVariant code capClass.toNat),
      (s.setCfs (s.cfs.writeVariant code capClass.toNat)).variantReply .ok)
  else (s, s.variantReply (s.variantFinding capClass.toNat))

/-- WRITE_VARIANT. -/
def takeWriteVariant (code : BitVec 64) (capClass : Half) (s : State) : State :=
  s.takeRequest (judgeWriteVariant code capClass)

/-- WRITE_VARIANT (R186). -/
def execWriteVariant (code : BitVec 64) (capClass : Half) (s : State) : Host.Outcome State Fault Refusal :=
  .next (takeWriteVariant code capClass s)

/-! ## IDENTIFY (R187) -/

/-- IDENTIFY is judged (R187): it changes no state. -/
def judgeIdentify (s : State) : State × Reply := (s, .identify s.cfs.variant)

/-- IDENTIFY. -/
def takeIdentify (s : State) : State := s.takeRequest judgeIdentify

/-- IDENTIFY (R187). -/
def execIdentify (s : State) : Host.Outcome State Fault Refusal := .next (takeIdentify s)

end Sys2Proof.Machine
end

