-- ==== Sys2Proof/Machine/Profiles.lean ====
section
/-! DEFINITION. Ride Profiles (chapter 04): the preview demand of a corner, and SELECT_PROFILE. -/

namespace Sys2Proof.Machine

/-! ## The preview demand (R76 to R78) -/

/-- The number, counting from 0, of the sample nearest a corner at an offset into a segment (R76). -/
def sampleIndex (count length offset : Nat) : Nat :=
  if offset * count / length < count then offset * count / length else count - 1

/-- The local amplitude of a slot for a role whose corner stands at `p` (R76). -/
def Slot.localAmplitude (x : Slot) (r : Role) (p : Position) : Int :=
  match x.segment.samples with
  | [] => x.segment.amplitude
  | first :: rest =>
    if x.state.isOn r then
      (first :: rest).getD
        (sampleIndex (rest.length + 1) x.segment.length (difference p x.segment.start)) first
    else first

/-- The base demand of a row for a role (R77). -/
def ResponseRow.base (w : ResponseRow) : Role → Nat
  | .front => w.frontBase
  | .rear => w.rearBase

/-- The override demand of a role (R78). -/
def Override.demand (o : Override) : Role → Nat
  | .front => o.front
  | .rear => o.rear

/-- The rough term: the ROUGH row's step times the intensity, for a segment treated as ROUGH (R77). -/
def roughTerm (p : Profile) (g : Segment) : Nat :=
  match p.treats g with
  | .rough => (p.rowFor g).roughStep * g.roughIntensity.getD 0
  | .smooth => 0
  | .bump => 0
  | .pothole => 0
  | .stepUp => 0
  | .stepDown => 0
  | .unknown => 0

/-- A demand above 1000 is taken as 1000 (R77, R99). -/
def capDemand (n : Nat) : Nat := if n < 1000 then n else 1000

/-- The preview demand that a slot gives a role's corner at `p` in a profile (R77, R78). -/
def Slot.previewDemand (x : Slot) (profile : Profile) (r : Role) (p : Position) : Nat :=
  match x.segment.override with
  | some o => o.demand r
  | none =>
    let row := profile.rowFor x.segment
    capDemand (row.base r + row.slope * (x.localAmplitude r p).natAbs + roughTerm profile x.segment)

/-! ## SELECT_PROFILE (R80) -/

/-- The reply to SELECT_PROFILE, with the selection as it stands (R80). -/
def State.selectReply (s : State) (code : ReplyCode) (target : Byte) : Reply :=
  .selectProfile code target s.cfs.active s.cfs.pendingProfile

/-- Findings 6 and 7 of R80: an immediate switch in CONFIG and STANDBY, a switch that begins in RUN and STARTING. -/
def State.acceptSwitch (s : State) (p : ProfileName) : State :=
  match s.mdc.mode with
  | .config => s.immediateSwitch p
  | .standby => s.immediateSwitch p
  | .starting => s.beginSwitch p
  | .run => s.beginSwitch p
  | .safe => s

/-- SELECT_PROFILE is judged (R80). -/
def judgeSelectProfile (target : Byte) (s : State) : State × Reply :=
  if s.mdc.mode = .safe then (s, s.selectReply .mode target)
  else
    match profileOf target with
    | none => (s, s.selectReply .range target)
    | some p =>
      match s.cfs.pendingProfile with
      | some q => if q = p then (s, s.selectReply .ok target) else (s, s.selectReply .busy target)
      | none =>
        if p = s.cfs.active then (s, s.selectReply .ok target)
        else (s.acceptSwitch p, (s.acceptSwitch p).selectReply .ok target)

/-- SELECT_PROFILE. -/
def takeSelectProfile (target : Byte) (s : State) : State := s.takeRequest (judgeSelectProfile target)

/-- SELECT_PROFILE (R80). -/
def execSelectProfile (target : Byte) (s : State) : Host.Outcome State Fault Refusal :=
  .next (takeSelectProfile target s)

end Sys2Proof.Machine
end

