-- ==== Sys2Proof/Machine/CornerControl.lean ====
section
/-! DEFINITION. Corner Control (chapter 05) and the condition bookkeeping at the end of an update (chapter 06):
UPDATE. -/

namespace Sys2Proof.Machine

/-! ## The sensor and the velocity (R92 to R98) -/

/-- The height of a sample that is in range, in micrometres (R92). -/
def CornerGeometry.height (g : CornerGeometry) (raw : Int) : Option Int :=
  if g.low ≤ raw ∧ raw ≤ g.high then some (raw * g.scale) else none

/-- The bad run after a sample (R92, R93). -/
def Cc.nextBadRun (x : Cc) (height : Option Int) : Nat :=
  match height with
  | some _ => 0
  | none => if x.badRun < 3 then x.badRun + 1 else 3

/-- The sensor state after a sample (R93, R94). -/
def Cc.nextSensor (x : Cc) (height : Option Int) : SensorState :=
  match x.sensor, height with
  | .valid, some _ => .valid
  | .valid, none => if x.nextBadRun none = 3 then .lost else .valid
  | .lost, some _ => if 10 ≤ x.goodRun + 1 then .valid else .lost
  | .lost, none => .lost

/-- The good run after a sample: it counts in-range samples while LOST, and is 0 after the sample that makes the sensor
VALID, after an out-of-range sample while LOST, and after the sample that makes it LOST (R92 to R94). -/
def Cc.nextGoodRun (x : Cc) (height : Option Int) : Nat :=
  match x.sensor, height with
  | .valid, some _ => x.goodRun
  | .valid, none => if x.nextBadRun none = 3 then 0 else x.goodRun
  | .lost, some _ => if 10 ≤ x.goodRun + 1 then 0 else x.goodRun + 1
  | .lost, none => 0

/-- The own velocity that an update forms, in mm/s: a sample in range after a previous height (R95). -/
def Cc.formed (x : Cc) (height : Option Int) : Option Int :=
  match height, x.previousHeight with
  | some h, some p => some (h - p)
  | _, _ => none

/-- A corner after the sample of an update in RUN is evaluated (R92 to R95). -/
def Cc.sampled (x : Cc) (height : Option Int) : Cc :=
  { x with
    badRun := x.nextBadRun height, sensor := x.nextSensor height, goodRun := x.nextGoodRun height
    ownVelocity := (x.formed height).getD x.ownVelocity, previousHeight := height }

/-- What an update supplies to the store: the height and the velocity, where the sensor is VALID after the sample, the
sample is in range and an own velocity was formed (R98). `x` is the corner before the sample. -/
def Cc.supplies (x : Cc) (height : Option Int) : Option (Int × Int) :=
  match x.nextSensor height, height, x.formed height with
  | .valid, some h, some v => some (h, v)
  | _, _, _ => none

/-- The velocity that an update uses, if one is used (R96, R97). -/
def chosenVelocity (own partner : Cc) (substitution : Substitution) : Option Int :=
  match own.sensor with
  | .valid => some own.ownVelocity
  | .lost =>
    match substitution, partner.sensor with
    | .axlePartner, .valid => some partner.ownVelocity
    | .axlePartner, .lost => none
    | .none, _ => none

/-! ## The demand (R99 to R104) -/

/-- The reactive demand (R99). -/
def Profile.reactive (p : Profile) (velocity : Option Int) : Nat :=
  match velocity with
  | some v => capDemand (p.floor + p.gain * v.natAbs / 100)
  | none => p.ceiling

/-- The combined demand of a preview and a reactive demand (R102). -/
def CombineMode.join (m : CombineMode) (preview reactive : Nat) : Nat :=
  match m with
  | .replace => preview
  | .max => if preview < reactive then reactive else preview
  | .min => if reactive < preview then reactive else preview

/-- A demand clamped to the floor and the ceiling (R103). -/
def Profile.clamp (p : Profile) (d : Nat) : Nat :=
  if d < p.floor then p.floor else if p.ceiling < d then p.ceiling else d

/-- The rate-limited demand: the target, or one rate-limit step from the reference towards it (R104). -/
def Profile.limitRate (p : Profile) (reference target : Nat) : Nat :=
  if reference + p.rateLimit < target then reference + p.rateLimit
  else if target + p.rateLimit < reference then reference - p.rateLimit
  else target

/-- What a demand computation gives (R99 to R104). -/
structure Demand where
  reactive : Nat
  preview : Option Nat
  combined : Nat
  target : Nat
  final : Nat
  deriving DecidableEq, Repr

/-- The combined demand: the reactive demand with no segment in effect, the override as REPLACE gives it, or the join
by the row's combine mode (R101, R102, R78). -/
def combinedDemand (p : Profile) (inEffect : Option Slot) (preview reactive : Nat) : Nat :=
  match inEffect with
  | none => reactive
  | some x =>
    match x.segment.override with
    | some _ => preview
    | none => (p.rowFor x.segment).combine.join preview reactive

/-- The demand of an update: `p` the followed profile, `last` the corner's last demand (R99 to R104). -/
def computeDemand (p : Profile) (r : Role) (position : Position) (velocity : Option Int) (inEffect : Option Slot)
    (last : Nat) : Demand :=
  let reactive := p.reactive velocity
  let preview := inEffect.map fun x => x.previewDemand p r position
  let combined := combinedDemand p inEffect (preview.getD 0) reactive
  let target := p.clamp combined
  { reactive, preview, combined, target, final := p.limitRate (p.clamp last) target }

/-- The driver states in which an update in RUN computes a demand (R89). -/
def DriverState.takesDemand : DriverState → Bool
  | .drive => true
  | .trim => true
  | .hold => true
  | .off => false
  | .checking => false
  | .armed => false
  | .released => false
  | .faulted => false

/-! ## The condition bookkeeping (R113, R116, R119) -/

/-- What an update leaves for its origin record: the driver state it read, the segment in effect, and its demand, where
it computed one (R119). -/
structure UpdateTrace where
  driver : DriverState
  inEffect : Option Slot
  demand : Option Demand
  deriving DecidableEq, Repr

/-- The origin record that a capture takes from an update (R119). -/
def State.captureOrigin (s : State) (c : Corner) (u : UpdateSet) (trace : UpdateTrace) : OriginRecord :=
  { tag := match trace.inEffect with
      | none => 0
      | some x => x.segment.tag
    role := some c.role, position := some (s.cornerPosition c)
    previewDemand := trace.demand.bind Demand.preview
    reactiveDemand := trace.demand.map Demand.reactive
    finalDemand := trace.demand.map Demand.final
    conditions := some u, driverState := some trace.driver, followed := some (s.cc.get c).followed }

/-- An update captures the origin: an enabled bit changes from CLEAR (R116). -/
def Cc.captures (x : Cc) (u : UpdateSet) : Bool :=
  accruedBits.any fun b => (x.bits.get b == .clear) && u.derived.get b && x.enabled.get b

/-- A corner after the bookkeeping at the end of an update: its update condition set, its bits, and its origin record,
captured where that is due (R113, R116). -/
def Cc.accrue (x : Cc) (u : UpdateSet) (captured : OriginRecord) : Cc :=
  let origin := if x.captures u then captured else x.origin
  { x with
    conditions := u, origin
    bits := PerBit.of fun b => (x.bits.get b).accrue (u.derived.get b) (x.enabled.get b) origin }

/-- The end of an update (R90 step 8). -/
def State.bookkeep (s : State) (c : Corner) (u : UpdateSet) (trace : UpdateTrace) : State :=
  s.setCc c ((s.cc.get c).accrue u (s.captureOrigin c u trace))

/-! ## The update (R89 to R91) -/

/-- An update outside RUN (R91). -/
def State.updateOutsideRun (s : State) (c : Corner) : State :=
  let x := s.cc.get c
  let taken := s.setCc c { x with missNotice := false, previousHeight := none }
  (taken.tellQuiet c true).bookkeep c { miss := x.missNotice }
    { driver := (s.vd.get c).state, inEffect := none, demand := none }

/-- Steps 1 to 4 of R90 on the corner: the MISS notice is taken, the boundary test made, the sample evaluated. -/
def State.updateSensor (s : State) (c : Corner) (raw : Int) : State :=
  let tested := (s.setCc c { s.cc.get c with missNotice := false }).boundaryTest c
  tested.setCc c ((tested.cc.get c).sampled ((s.geometry.corners.get c).height raw))

/-- The velocity that an update uses, after its sample is evaluated (R96). -/
def State.velocityUsed (s : State) (c : Corner) : Option Int :=
  chosenVelocity (s.cc.get c) (s.cc.get c.partner) (s.geometry.corners.get c).substitution

/-- The demand of an update, after its sample is evaluated and its segment in effect is read (R99 to R104). -/
def State.demandOf (s : State) (c : Corner) (inEffect : Option Slot) : Demand :=
  computeDemand (s.followedProfile c) c.role (s.cornerPosition c) (s.velocityUsed c) inEffect (s.cc.get c).lastDemand

/-- The segment in effect holds an override (R78). -/
def overrides (inEffect : Option Slot) : Bool :=
  match inEffect with
  | none => false
  | some x => x.segment.override.isSome

/-- The result is handed to the driver and becomes the last demand; an override that gave the preview demand is marked
used (R66, R105). -/
def State.handOver (s : State) (c : Corner) (inEffect : Option Slot) (d : Demand) : State :=
  let marked := match inEffect with
    | none => s
    | some x => if x.segment.override.isSome then s.setPvs (s.pvs.markOverride c.track x.serial) else s
  (marked.handToDriver c d.final).setCc c { s.cc.get c with lastDemand := d.final }

/-- The corner's sensor is LOST (R96). -/
def State.sensorLost (s : State) (c : Corner) : Bool := (s.cc.get c).sensor == .lost

/-- The conditions that an update in RUN raises (R111, R112). `s` is the state after the sample is evaluated. -/
def State.conditionsOf (s : State) (c : Corner) (miss : Bool) (driver : DriverState) (inEffect : Option Slot) :
    UpdateSet :=
  let d := s.demandOf c inEffect
  let computes := driver.takesDemand
  { miss
    subst := s.sensorLost c && (s.velocityUsed c).isSome
    slost := s.sensorLost c && (s.velocityUsed c).isNone
    nopv := computes && inEffect.isNone && (s.pvs.preview == .active) && ((s.tod.get c.track).lock == .locked)
    ovrd := computes && overrides inEffect
    sat := computes && (d.target != d.combined)
    rate := computes && (d.final != d.target)
    held := computes && (driver == .trim) }

/-- An update in RUN (R90). -/
def State.updateInRun (s : State) (c : Corner) (raw : Int) : State :=
  let driver := (s.vd.get c).state
  let height := (s.geometry.corners.get c).height raw
  let sensed := s.updateSensor c raw
  let inEffect := sensed.inEffect c
  let supplied := (s.cc.get c).supplies height
  let presented := sensed.setPvs (sensed.pvs.present c supplied)
  let demand := sensed.demandOf c inEffect
  let conditions := sensed.conditionsOf c (s.cc.get c).missNotice driver inEffect
  let handed := if driver.takesDemand then presented.handOver c inEffect demand else presented
  (handed.tellQuiet c inEffect.isNone).bookkeep c conditions
    { driver, inEffect, demand := if driver.takesDemand then some demand else none }

/-- UPDATE (R89). -/
def execUpdate (corner : Corner) (raw : Int) (s : State) : Host.Outcome State Fault Refusal :=
  .next (s.unlessHeld fun s => if s.mdc.mode = .run then s.updateInRun corner raw else s.updateOutsideRun corner)

end Sys2Proof.Machine
end

