-- ==== Sys2Proof/Machine/Drivers.lean ====
section
/-! DEFINITION. Valve Drivers (chapter 07) and RECHECK (chapter 08): TRIM_AHEAD, RECHECK, CURRENT_SAMPLE,
TRACKING_TIMER_EXPIRY, CHECK_COMPLETION, TRIM_COMPLETION, TRIM_TIMER_EXPIRY. -/

namespace Sys2Proof.Machine

/-! ## TRIM_AHEAD (R142) -/

/-- An accepted TRIM_AHEAD: the pull-in count becomes the count, and the start test of R139 follows (R142). -/
def State.pullAhead (s : State) (c : Corner) (count : Nat) : State :=
  (s.setVd c { s.vd.get c with pullIn := count }).driveStartTest c

/-- The reply to TRIM_AHEAD for a corner, as its driver stands (R142). -/
def State.trimAheadReply (s : State) (code : ReplyCode) (corner count : Byte) (c : Corner) : Reply :=
  .trimAhead code corner count (s.vd.get c).balance (s.vd.get c).pullIn

/-- Findings 3 to 6 of R142 for the driver named. -/
def State.trimAheadFinding (s : State) (c : Corner) (count : Byte) : ReplyCode :=
  if count.toNat < 1 ∨ 4 < count.toNat then .range
  else if (s.vd.get c).state ≠ .drive then .mode
  else if (s.vd.get c).balance - count.toNat < -4 then .range
  else .ok

/-- TRIM_AHEAD is judged (R142). -/
def judgeTrimAhead (corner count : Byte) (s : State) : State × Reply :=
  match cornerOf corner with
  | none => (s, .trimAhead (if s.mdc.mode ≠ .run then .mode else .range) corner count 0 0)
  | some c =>
    if s.mdc.mode ≠ .run then (s, s.trimAheadReply .mode corner count c)
    else if s.trimAheadFinding c count = .ok then
      (s.pullAhead c count.toNat, (s.pullAhead c count.toNat).trimAheadReply .ok corner count c)
    else (s, s.trimAheadReply (s.trimAheadFinding c count) corner count c)

/-- TRIM_AHEAD. -/
def takeTrimAhead (corner count : Byte) (s : State) : State := s.takeRequest (judgeTrimAhead corner count)

/-- TRIM_AHEAD (R142). -/
def execTrimAhead (corner count : Byte) (s : State) : Host.Outcome State Fault Refusal :=
  .next (takeTrimAhead corner count s)

/-! ## RECHECK (R164, R165) -/

/-- An accepted RECHECK: the driver enters CHECKING, and the faulted count falls by 1 (R165). -/
def State.recheck (s : State) (c : Corner) : State :=
  (s.setVd c (s.vd.get c).checking).setMdc { s.mdc with faultedCount := s.mdc.faultedCount - 1 }

/-- The reply to RECHECK for a corner, as its driver stands (R164). -/
def State.recheckReply (s : State) (code : ReplyCode) (corner : Byte) (c : Corner) : Reply :=
  .recheck code corner (some (s.vd.get c).state) (s.vd.get c).retryCount

/-- Findings 3 to 5 of R164 for the driver named. -/
def State.recheckFinding (s : State) (c : Corner) : ReplyCode :=
  if (s.vd.get c).state ≠ .faulted then .state else if (s.vd.get c).retryCount = 3 then .retries else .ok

/-- RECHECK is judged (R164). -/
def judgeRecheck (corner : Byte) (s : State) : State × Reply :=
  match cornerOf corner with
  | none => (s, .recheck (if s.mdc.mode ≠ .run then .mode else .range) corner none 0)
  | some c =>
    if s.mdc.mode ≠ .run then (s, s.recheckReply .mode corner c)
    else if s.recheckFinding c = .ok then (s.recheck c, (s.recheck c).recheckReply .ok corner c)
    else (s, s.recheckReply (s.recheckFinding c) corner c)

/-- RECHECK. -/
def takeRecheck (corner : Byte) (s : State) : State := s.takeRequest (judgeRecheck corner)

/-- RECHECK (R164). -/
def execRecheck (corner : Byte) (s : State) : Host.Outcome State Fault Refusal := .next (takeRecheck corner s)

/-! ## CURRENT_SAMPLE (R147, R148) -/

/-- The driver states in which a sample is judged against the overcurrent threshold (R148). -/
def DriverState.watched : DriverState → Bool
  | .checking => true
  | .drive => true
  | .trim => true
  | .hold => true
  | .off => false
  | .armed => false
  | .released => false
  | .faulted => false

/-- The driver states in which a sample is judged against the tracking band (R147). -/
def DriverState.tracked : DriverState → Bool
  | .drive => true
  | .hold => true
  | .off => false
  | .checking => false
  | .armed => false
  | .trim => false
  | .released => false
  | .faulted => false

/-- A coil current as it is read: above 2,500 mA it reads 2,500 mA (R147). -/
def currentReading (current : Nat) : Nat := if current < Config.maxCurrentReading then current else Config.maxCurrentReading

/-- A reading lies outside the band around the setpoint (R147). -/
def outsideBand (band setpoint reading : Nat) : Bool :=
  decide (setpoint + band < reading) || decide (reading + band < setpoint)

/-- The tracking timer after a reading: outside the band it is started if it is stopped, within the band it is stopped
(R147). -/
def Vd.judgeTracking (v : Vd) (l : Limits) (reading : Nat) : Vd :=
  { v with
    tracking :=
      if outsideBand l.trackingBand v.setpoint reading then
        (if v.tracking = .stopped then .running l.trackingWindow else v.tracking)
      else .stopped }

/-- A current sample at a driver (R147, R148). -/
def State.sample (s : State) (c : Corner) (current : Nat) : State :=
  let reading := currentReading current
  let kept := s.setVd c { s.vd.get c with measured := reading }
  let state := (s.vd.get c).state
  if state.watched ∧ s.limits.overcurrent < reading then kept.enterFaulted c .overcurrent reading
  else if state.tracked then kept.setVd c ((kept.vd.get c).judgeTracking s.limits reading)
  else kept

/-- CURRENT_SAMPLE (R147). -/
def execCurrentSample (corner : Corner) (current : Nat) (s : State) : Host.Outcome State Fault Refusal :=
  .next (s.unlessHeld fun s => s.sample corner current)

/-! ## TRACKING_TIMER_EXPIRY (R147) -/

/-- The expiry of a running tracking timer, which runs in DRIVE and HOLD alone, finds a TRACKING fault (R147); a
stopped timer has no expiry (assumption log 4). -/
def State.trackingExpires (s : State) (c : Corner) : State :=
  let v := s.vd.get c
  if v.tracking ≠ .stopped ∧ v.state.tracked then s.enterFaulted c .tracking v.measured else s

/-- TRACKING_TIMER_EXPIRY (R147). -/
def execTrackingTimerExpiry (corner : Corner) (s : State) : Host.Outcome State Fault Refusal :=
  .next (s.unlessHeld fun s => s.trackingExpires corner)

/-! ## CHECK_COMPLETION (R132, R134) -/

/-- An OK result replaces both estimates (R132, R133). -/
def State.setEstimates (s : State) (c : Corner) (resistance : Nat) : State :=
  s.setVd c
    { s.vd.get c with resistance := some resistance, temperature := some ((s.map c).temperatureOf resistance) }

/-- A check in STARTING that passed: the driver is ARMED, and the Mode Controller is told (R134, R171). -/
def State.armed (s : State) (c : Corner) : State :=
  ((s.setVd c ((s.vd.get c).atRest .armed)).noteCheckEnd c .armed).runIfChecked

/-- A check in RUN that passed: the trim schedule starts, and the driver enters HOLD if its estimate is at or above
hot, and DRIVE otherwise, and makes its start test (R134, R139, R141). -/
def State.rechecked (s : State) (c : Corner) : State :=
  let scheduled := s.startTrimSchedule c
  (if scheduled.isHot c then scheduled.enterHold c else scheduled.enterDriveAtFloor c).startTest c

/-- A check completes with an OK result (R134). No check is in progress in CONFIG, SAFE and STANDBY (assumption
log 24). -/
def State.checkPassed (s : State) (c : Corner) (resistance : Nat) : State :=
  match s.mdc.mode with
  | .starting => (s.setEstimates c resistance).armed c
  | .run => (s.setEstimates c resistance).rechecked c
  | .config => s
  | .safe => s
  | .standby => s

/-- A check completes at a driver in CHECKING (R132, R134). -/
def State.checkCompletes (s : State) (c : Corner) (resistance : Nat) : State :=
  match (s.map c).classify resistance with
  | .short => s.enterFaulted c .shortCoil resistance
  | .openCircuit => s.enterFaulted c .openCoil resistance
  | .ok => s.checkPassed c resistance

/-- CHECK_COMPLETION (R134); a driver that is not in CHECKING has no check to complete (assumption log 4). -/
def execCheckCompletion (corner : Corner) (resistance : Fin 10000) (s : State) : Host.Outcome State Fault Refusal :=
  .next (s.unlessHeld fun s =>
    if (s.vd.get corner).state = .checking then s.checkCompletes corner resistance.val else s)

/-! ## TRIM_COMPLETION (R145) -/

/-- A driver at a trim completion with an OK result: the balance falls by 1, and the pull-in count with it where the
trim kind was PULL_IN (R145). -/
def Vd.trimmed (v : Vd) (kind : TrimKind) : Vd :=
  { v with
    balance := v.balance - 1
    pullIn := match kind with
      | .due => v.pullIn
      | .pullIn => v.pullIn - 1 }

/-- The state that a driver leaves TRIM for, by origin and estimate (R145). -/
def State.leaveTrim (s : State) (c : Corner) (origin : TrimOrigin) : State :=
  match origin with
  | .drive => if s.isHot c then s.enterHold c else s.enterDriveKept c
  | .hold => if s.isWarm c then s.enterHold c else s.enterDriveAtFloor c

/-- A trim completes with an OK result: estimates, balance, new state, and its start test (R145). -/
def State.trimPassed (s : State) (c : Corner) (t : Trim) (resistance : Nat) : State :=
  let measured := s.setEstimates c resistance
  ((measured.setVd c ((measured.vd.get c).trimmed t.kind)).leaveTrim c t.origin).startTest c

/-- A trim completes (R145). -/
def State.trimCompletes (s : State) (c : Corner) (t : Trim) (resistance : Nat) : State :=
  match (s.map c).classify resistance with
  | .short => s.enterFaulted c .shortCoil resistance
  | .openCircuit => s.enterFaulted c .openCoil resistance
  | .ok => s.trimPassed c t resistance

/-- The trim that a driver in TRIM is making. -/
def Vd.trimInProgress (v : Vd) : Option Trim := if v.state = .trim then v.trim else none

/-- TRIM_COMPLETION (R145); a driver that is not in TRIM has no trim to complete (assumption log 4). -/
def execTrimCompletion (corner : Corner) (resistance : Fin 10000) (s : State) : Host.Outcome State Fault Refusal :=
  .next (s.unlessHeld fun s =>
    match (s.vd.get corner).trimInProgress with
    | some t => s.trimCompletes corner t resistance.val
    | none => s)

/-! ## TRIM_TIMER_EXPIRY (R136, R137) -/

/-- The expiry of a running trim timer: the balance rises by 1, the timer starts again with the interval in force, and
the start test follows (R136, R137, R139 to R141). -/
def State.trimTimerExpires (s : State) (c : Corner) : State :=
  let v := s.vd.get c
  (s.setVd c { v with balance := v.balance + 1, trimTimer := .running (s.trimInterval c) }).expiryStartTest c

/-- TRIM_TIMER_EXPIRY (R137); a stopped timer has no expiry (assumption log 4). -/
def execTrimTimerExpiry (corner : Corner) (s : State) : Host.Outcome State Fault Refusal :=
  .next (s.unlessHeld fun s =>
    if (s.vd.get corner).trimTimer = .stopped then s else s.trimTimerExpires corner)

end Sys2Proof.Machine
end

