-- ==== Sys2Proof/Machine/Layouts.lean ====
section
/-! DEFINITION. The layouts of the records of the outbound queue (R198, R199), and the bytes that an exchange shifts out
(R189). -/

namespace Sys2Proof.Machine

/-! ## Codes of R199 -/

def ReplyCode.code : ReplyCode → Nat
  | .ok => 0
  | .mode => 1
  | .order => 2
  | .range => 3
  | .locked => 4
  | .late => 5
  | .suspended => 6
  | .state => 7
  | .full => 8
  | .dupTag => 9
  | .unknownTag => 10
  | .busy => 11
  | .written => 12
  | .noVariant => 13
  | .unlockedTrack => 14
  | .retries => 15

def cornerCode : Corner → Nat
  | .fl => 0
  | .fr => 1
  | .rl => 2
  | .rr => 3

def trackCode : Track → Nat
  | .left => 0
  | .right => 1

def Kind.code : Kind → Nat
  | .smooth => 0
  | .bump => 1
  | .pothole => 2
  | .stepUp => 3
  | .stepDown => 4
  | .rough => 5
  | .unknown => 6

def Role.code : Role → Nat
  | .front => 0
  | .rear => 1

def ProfileName.code : ProfileName → Nat
  | .a => 0
  | .b => 1

/-- The code of a pending profile: 2 for none. -/
def pendingCode : Option ProfileName → Nat
  | some p => p.code
  | none => 2

def PartMode.code : PartMode → Nat
  | .config => 0
  | .starting => 1
  | .run => 2
  | .safe => 3
  | .standby => 4

def PreviewState.code : PreviewState → Nat
  | .suspended => 0
  | .active => 1

def LockState.code : LockState → Nat
  | .unlocked => 0
  | .acquiring => 1
  | .locked => 2

def DriverState.code : DriverState → Nat
  | .off => 0
  | .checking => 1
  | .armed => 2
  | .drive => 3
  | .trim => 4
  | .hold => 5
  | .released => 6
  | .faulted => 7

def SensorState.code : SensorState → Nat
  | .valid => 0
  | .lost => 1

def AccruedBit.code : AccruedBit → Nat
  | .limit => 0
  | .gap => 1
  | .sense => 2
  | .holdup => 3
  | .unmet => 4

def FaultKind.code : FaultKind → Nat
  | .shortCoil => 0
  | .openCoil => 1
  | .overcurrent => 2
  | .tracking => 3

def LockCause.code : LockCause → Nat
  | .acquired => 0
  | .reverse => 1
  | .directionUnknown => 2
  | .slip => 3
  | .standby => 4

def ModeCause.code : ModeCause → Nat
  | .start => 0
  | .checksEnded => 1
  | .secondFault => 2
  | .standbyRequest => 3
  | .previewSuspended => 4
  | .previewResumed => 5

/-! ## Bit sets of R199 -/

def groupSetByte (g : PerGroup Bool) : Byte :=
  byteOfNat (bit g.valveMaps 0 + bit g.profileA 1 + bit g.profileB 2 + bit g.geometry 3 + bit g.limits 4)

def bitSetByte (b : PerBit Bool) : Byte :=
  byteOfNat (bit b.limit 0 + bit b.gap 1 + bit b.sense 2 + bit b.holdup 3 + bit b.unmet 4)

def UpdateSet.byte (u : UpdateSet) : Byte :=
  byteOfNat (bit u.sat 0 + bit u.rate 1 + bit u.nopv 2 + bit u.miss 3 + bit u.subst 4 + bit u.slost 5 + bit u.held 6
    + bit u.ovrd 7)

/-! ## Fields that may be absent: absent fields are bytes of value 0 -/

/-- A two-byte number, or zeros. -/
def optBytes (n : Option Nat) : List Byte := bytesOfNat (n.getD 0)

/-- A one-byte code, or zero. -/
def optByte (n : Option Nat) : List Byte := [byteOfNat (n.getD 0)]

/-- A position, or zeros (assumption log 33). -/
def optPosition (p : Option Position) : List Byte := bytesOfWord (p.getD 0)

/-- The presence byte of eight fields, in order from bit 0. -/
def presence (b0 b1 b2 b3 b4 b5 b6 b7 : Bool) : Byte :=
  byteOfNat (bit b0 0 + bit b1 1 + bit b2 2 + bit b3 3 + bit b4 4 + bit b5 5 + bit b6 6 + bit b7 7)

/-- The origin record, 17 bytes. -/
def OriginRecord.bytes (o : OriginRecord) : List Byte :=
  bytesOfHalf o.tag
    ++ [presence o.role.isSome o.position.isSome o.previewDemand.isSome o.reactiveDemand.isSome o.finalDemand.isSome
        o.conditions.isSome o.driverState.isSome o.followed.isSome]
    ++ optByte (o.role.map Role.code) ++ optPosition o.position ++ optBytes o.previewDemand
    ++ optBytes o.reactiveDemand ++ optBytes o.finalDemand ++ [(o.conditions.map UpdateSet.byte).getD 0]
    ++ optByte (o.driverState.map DriverState.code) ++ optByte (o.followed.map ProfileName.code)

/-- The part code, the characters DC-418 in ASCII. -/
def partCode : List Byte := [0x44, 0x43, 0x2D, 0x34, 0x31, 0x38]

/-- The variant state, code and cap class. -/
def variantBytes (v : Option Variant) : List Byte :=
  [byteOfNat (bit v.isSome 0)] ++ bytesOfCode ((v.map Variant.code).getD 0) ++ optBytes (v.map Variant.cap)

/-! ## The STATUS reply -/

def TrackStatus.bytes (t : TrackStatus) : List Byte :=
  bytesOfWord t.position ++ bytesOfNat4 t.speed ++ [byteOfNat t.lock.code]

def CornerStatus.bytes (c : CornerStatus) : List Byte :=
  [byteOfNat c.driver.code] ++ bytesOfNat c.setpoint ++ bytesOfNat c.lastDemand
    ++ [bitSetByte c.accrued, byteOfInt c.balance] ++ bytesOfInt (c.temperature.getD 0)
    ++ [byteOfNat (bit c.temperature.isSome 0), byteOfNat c.followed.code, byteOfNat c.sensor.code]

def SlotCounts.bytes (n : SlotCounts) : List Byte :=
  [n.free, n.pending, n.frontLead, n.frontOn, n.between, n.rearLead, n.rearOn, n.spent].map byteOfNat

def StatusReply.bytes (r : StatusReply) : List Byte :=
  [byteOfNat r.mode.code, byteOfNat r.preview.code] ++ Sys2Proof.Machine.tracks.flatMap (fun t => (r.tracks.get t).bytes)
    ++ Sys2Proof.Machine.corners.flatMap (fun c => (r.corners.get c).bytes) ++ r.slots.bytes ++ [byteOfNat r.queueCount]

/-! ## Bodies -/

/-- The outcome code at offset 0 of every reply body. -/
def Reply.outcome : Reply → ReplyCode
  | .identify _ => .ok
  | .setGroup code _ _ => code
  | .readGroup code _ _ _ _ => code
  | .setLocks code _ => code
  | .writeVariant code _ _ => code
  | .start code _ _ => code
  | .standby code _ => code
  | .restart _ => .ok
  | .motion code => code
  | .preview code _ _ _ => code
  | .withdraw code _ => code
  | .selectProfile code _ _ _ => code
  | .trimAhead code _ _ _ _ => code
  | .recheck code _ _ _ => code
  | .setReporting code _ _ => code
  | .clearConditions code _ _ => code
  | .readOrigin code _ _ _ => code
  | .status _ => .ok

/-- The fields of a reply body from offset 1 on (R199). -/
def Reply.fields : Reply → List Byte
  | .identify variant => partCode ++ [Config.revision] ++ variantBytes variant
  | .setGroup _ group groupsSet => [group, groupSetByte groupsSet]
  | .readGroup _ group isLocked inUse contents =>
    [group, byteOfNat (bit contents.isSome 0 + bit isLocked 1 + bit inUse 2)]
      ++ (match contents with
        | some c => c.bytes
        | none => [])
  | .setLocks _ locks => [groupSetByte locks]
  | .writeVariant _ variant groupsSet => variantBytes variant ++ [groupSetByte groupsSet]
  | .start _ mode groupsUnset => [byteOfNat mode.code, groupSetByte groupsUnset]
  | .standby _ mode => [byteOfNat mode.code]
  | .restart mode => [byteOfNat mode.code]
  | .motion _ => []
  | .preview _ tag evicted superseded =>
    bytesOfHalf tag ++ bytesOfHalf evicted ++ [byteOfNat superseded.length] ++ superseded.flatMap bytesOfHalf
  | .withdraw _ tag => bytesOfHalf tag
  | .selectProfile _ target active pending => [target, byteOfNat active.code, byteOfNat (pendingCode pending)]
  | .trimAhead _ corner count balance pullIn => [corner, count, byteOfInt balance, byteOfNat pullIn]
  | .recheck _ corner driver retryCount => [corner] ++ optByte (driver.map DriverState.code) ++ [byteOfNat retryCount]
  | .setReporting _ corner enabled => [corner, bitSetByte enabled]
  | .clearConditions _ corner accrued => [corner, bitSetByte accrued]
  | .readOrigin _ corner accrued origin => [corner, bitSetByte accrued] ++ origin.bytes
  | .status contents => contents.bytes

/-- The request kind that a reply answers, which is its record kind (R198). -/
def Reply.kind : Reply → RequestKind
  | .identify _ => .identify
  | .setGroup _ _ _ => .setGroup
  | .readGroup _ _ _ _ _ => .readGroup
  | .setLocks _ _ => .setLocks
  | .writeVariant _ _ _ => .writeVariant
  | .start _ _ _ => .start
  | .standby _ _ => .standby
  | .restart _ => .restart
  | .motion _ => .motion
  | .preview _ _ _ _ => .preview
  | .withdraw _ _ => .withdraw
  | .selectProfile _ _ _ _ => .selectProfile
  | .trimAhead _ _ _ _ _ => .trimAhead
  | .recheck _ _ _ _ => .recheck
  | .setReporting _ _ _ => .setReporting
  | .clearConditions _ _ _ => .clearConditions
  | .readOrigin _ _ _ _ => .readOrigin
  | .status _ => .status

def PassageReport.bytes (p : PassageReport) : List Byte :=
  bytesOfHalf p.tag ++ [byteOfNat (trackCode p.track), byteOfNat p.kind.code] ++ bytesOfWord p.start
    ++ bytesOfNat p.length
    ++ [byteOfNat (bit p.incomplete 0 + bit p.missedFront 1 + bit p.missedRear 2 + bit p.overrideUsed 3)
        , presence p.frontLead.isSome p.rearLead.isSome p.frontEntry.isSome p.rearEntry.isSome p.frontPeak.isSome
          p.frontTravel.isSome p.rearPeak.isSome p.rearTravel.isSome]
    ++ [p.frontLead, p.rearLead, p.frontEntry, p.rearEntry, p.frontPeak, p.frontTravel, p.rearPeak,
        p.rearTravel].flatMap optBytes

def FaultReport.bytes (f : FaultReport) : List Byte :=
  [byteOfNat (cornerCode f.corner), byteOfNat f.record.kind.code, byteOfNat f.record.state.code,
    byteOfNat f.record.mode.code] ++ bytesOfNat f.record.measured ++ bytesOfNat f.record.setpoint
    ++ bytesOfWord f.record.position ++ [byteOfNat f.retryCount]

def LockReport.bytes (l : LockReport) : List Byte :=
  [byteOfNat (trackCode l.track), byteOfNat l.state.code, byteOfNat l.cause.code] ++ bytesOfWord l.position

def ModeReport.bytes (m : ModeReport) : List Byte :=
  [m.cause.code, m.mode.code, m.previous.code, m.preview.code, m.faultedCount, m.superseded].map byteOfNat

def ProfileReport.bytes (p : ProfileReport) : List Byte :=
  [byteOfNat p.active.code, byteOfNat p.previous.code] ++ corners.flatMap (fun c => optPosition (p.positions.get c))

def ConditionReport.bytes (r : ConditionReport) : List Byte :=
  [byteOfNat (cornerCode r.corner), byteOfNat r.bit.code] ++ r.origin.bytes

/-- The body of a report (R199). -/
def Report.body : Report → List Byte
  | .passage p => p.bytes
  | .condition c => c.bytes
  | .fault f => f.bytes
  | .lock l => l.bytes
  | .mode m => m.bytes
  | .profile p => p.bytes

/-- The record kind of a report (R198). -/
def Report.kindByte : Report → Byte
  | .passage _ => 0x81
  | .condition _ => 0x82
  | .fault _ => 0x83
  | .lock _ => 0x84
  | .mode _ => 0x85
  | .profile _ => 0x86

/-- The body of a record (R199). -/
def Record.body : Record → List Byte
  | .reply r => byteOfNat r.outcome.code :: r.fields
  | .report r => r.body

/-- The kind byte of a record (R198). -/
def Record.kindByte : Record → Byte
  | .reply r => r.kind.code
  | .report r => r.kindByte

/-- The bytes of a record, from its record kind to its CRC (R199). -/
def Record.bytes (r : Record) : List Byte :=
  r.kindByte :: byteOfNat r.body.length :: r.body ++ bytesOfHalf (frameCrc r.kindByte r.body)

/-! ## The exchange -/

/-- The bytes that an exchange shifts out before the bytes of value 0: the status byte and the copy (R189). -/
def Exchange.bytes (x : Exchange) : List Byte :=
  x.status :: (match x.copy with
    | some r => r.bytes
    | none => [])

/-- The byte shifted out at place `n` of the exchange, counting from 0; 0 after the copy, and 0 while the reset input is
held (R189, R196). -/
def State.shiftedOut (s : State) (n : Nat) : Byte :=
  if s.resetHeld then 0
  else
    match s.lif.exchange with
    | some x => byteAt x.bytes n
    | none => 0

end Sys2Proof.Machine
end

