-- ==== Sys2Proof/Machine/Modes.lean ====
section
/-! DEFINITION. Operating Modes (chapter 09): START, STANDBY, RESTART, FULL_RESET, RESET_RELEASE. -/

namespace Sys2Proof.Machine

/-! ## START (R170) -/

/-- The finding of R170. -/
def State.startFinding (s : State) : ReplyCode :=
  if s.mdc.mode ≠ .config ∧ s.mdc.mode ≠ .standby then .mode
  else if ¬s.allGroupsSet then .order
  else if s.cfs.variant = none then .noVariant
  else .ok

/-- START is judged (R170): a reply of ORDER carries the set of groups UNSET, any other reply the empty set. -/
def judgeStart (s : State) : State × Reply :=
  match s.startFinding with
  | .ok => (s.enterStarting, .start .ok s.enterStarting.mdc.mode (PerGroup.of fun _ => false))
  | .order => (s, .start .order s.mdc.mode s.groupsUnset)
  | code => (s, .start code s.mdc.mode (PerGroup.of fun _ => false))

/-- START. -/
def takeStart (s : State) : State := s.takeRequest judgeStart

/-- START (R170). -/
def execStart (s : State) : Host.Outcome State Fault Refusal := .next (takeStart s)

/-! ## STANDBY (R172) -/

/-- STANDBY is judged (R172). -/
def judgeStandby (s : State) : State × Reply :=
  match s.mdc.mode with
  | .config => (s, .standby .ok .config)
  | .standby => (s, .standby .ok .standby)
  | .starting => (s.enterStandby, .standby .ok s.enterStandby.mdc.mode)
  | .run => (s.enterStandby, .standby .ok s.enterStandby.mdc.mode)
  | .safe => (s.enterStandby, .standby .ok s.enterStandby.mdc.mode)

/-- STANDBY. -/
def takeStandby (s : State) : State := s.takeRequest judgeStandby

/-- STANDBY (R172). -/
def execStandby (s : State) : Host.Outcome State Fault Refusal := .next (takeStandby s)

/-! ## RESTART (R173, R191 step 5, R196) -/

/-- RESTART: the queue is emptied, every owner applies RESTART, and the reply is placed as the one record in the queue.
It is taken while the queue holds 32 records as well (R190 finding 6). -/
def takeRestart (s : State) : State :=
  s.unlessHeld fun s =>
    let applied := s.delivered.applyRestart
    applied.setLif { applied.lif with queue := [.reply (.restart applied.mdc.mode)] }

/-- RESTART (R173). -/
def execRestart (s : State) : Host.Outcome State Fault Refusal := .next (takeRestart s)

/-! ## FULL_RESET and RESET_RELEASE (R174) -/

/-- The level of the reset input after the cause of a full reset (assumption log 10). -/
def resetLevel (cause : ResetCause) (level : Bool) : Bool :=
  match cause with
  | .inputAsserted => true
  | .powerUp => level

/-- FULL_RESET (R174). -/
def execFullReset (cause : ResetCause) (s : State) : Host.Outcome State Fault Refusal :=
  .next (s.applyFullReset (resetLevel cause s.resetHeld))

/-- RESET_RELEASE: the part resumes, in CONFIG, with its full-reset values (R174). -/
def execResetRelease (s : State) : Host.Outcome State Fault Refusal := .next { s with resetHeld := false }

end Sys2Proof.Machine
end

