-- ==== Sys2Proof/Machine/Odometry.lean ====
section
/-! DEFINITION. Track Odometry and Motion (chapter 01): MOTION, front and rear pulses, standstill. -/

namespace Sys2Proof.Machine

/-! ## MOTION (R7, R8) -/

/-- The cause with which a LOCKED track leaves LOCKED when given a direction other than FORWARD (R8). -/
def Direction.lossCause : Direction → Option LockCause
  | .forward => none
  | .reverse => some .reverse
  | .unknown => some .directionUnknown

/-- A track's odometer is given a direction, which it applies by its lock state (R8). -/
def State.giveDirection (s : State) (d : Direction) (t : Track) : State :=
  let o := s.tod.get t
  if o.direction = d then s
  else
    let taken := s.setTod t { o with direction := d }
    match d.lossCause, o.lock with
    | none, _ => taken
    | some cause, .locked => taken.loseLock t cause
    | some _, .acquiring => taken.setTod t { o with direction := d, lock := .unlocked, runCount := 0 }
    | some _, .unlocked => taken

/-- MOTION is judged: both odometers take a valid direction, each on its own account (R7). -/
def judgeMotion (direction : Byte) (s : State) : State × Reply :=
  match directionOf direction with
  | none => (s, .motion .range)
  | some d => (tracks.foldl (fun s t => s.giveDirection d t) s, .motion .ok)

/-- MOTION. -/
def takeMotion (direction : Byte) (s : State) : State := s.takeRequest (judgeMotion direction)

/-- MOTION (R7). -/
def execMotion (direction : Byte) (s : State) : Host.Outcome State Fault Refusal := .next (takeMotion direction s)

/-! ## Front pulse (R4, R5, R9, R10, R13, R15) -/

/-- The interval that a pulse measures: none where no previous pulse time is held; 0 is taken as 1 (R4). -/
def Tod.intervalAt (o : Tod) (time : Nat) : Option Nat :=
  o.previousTime.map fun previous => if time - previous = 0 then 1 else time - previous

/-- The speed that a pulse of a length, in micrometres, gives (R4). -/
def speedOf (length : Nat) : Option Nat → Nat
  | none => 0
  | some interval =>
    if Config.maxSpeed < length * 1000 / interval then Config.maxSpeed else length * 1000 / interval

/-- A front pulse is timed, whatever the direction (R4). -/
def Tod.timed (o : Tod) (length time : Nat) : Tod :=
  { o with
    lastInterval := o.intervalAt time, speed := speedOf length (o.intervalAt time), previousTime := some time
    standstill := .running Config.standstillTime }

/-- A front pulse advances the position (R5). -/
def Tod.advanced (o : Tod) (length : Nat) : Tod :=
  { o with
    position := forward o.position ((o.remainder + length) / 1000), remainder := (o.remainder + length) % 1000 }

/-- What the store reads at an advance of a track (R48). -/
def State.advanceView (s : State) (t : Track) : AdvanceView :=
  let o := s.tod.get t
  let view := fun r =>
    { position := s.rolePosition o.position r, profile := s.followedProfile (t.corner r)
      demand := (s.cc.get (t.corner r)).lastDemand : RoleView }
  { speed := o.speed, front := view .front, rear := view .rear }

/-- A corner is given a MISS notice where `given` holds (R63, R64). -/
def State.giveMiss (s : State) (c : Corner) (given : Bool) : State :=
  if given then s.setCc c { s.cc.get c with missNotice := true } else s

/-- The advance is handed to the store, whose passage gives the MISS notices of the track's corners (R48, R56, R63). -/
def State.handAdvance (s : State) (t : Track) : State :=
  let v := s.advanceView t
  let missed := fun r => (s.pvs.lists.get t).any fun x => x.missedAt v r
  ((s.setPvs (s.pvs.advance t v)).giveMiss (t.corner .front) (missed .front)).giveMiss (t.corner .rear) (missed .rear)

/-- The pulse is in band against the interval of the pulse before it (R9). -/
def inBand (reference interval : Option Nat) : Bool :=
  match reference, interval with
  | some r, some i => decide (r ≤ 2 * i) && decide (i ≤ 2 * r)
  | _, _ => true

/-- The slip limit, in micrometres (R12). -/
def Geometry.slipLimit (g : Geometry) : Nat := g.slipWindow * 10 * g.slipThreshold

/-- The slip window, in micrometres (R12). -/
def Geometry.slipWindowMicro (g : Geometry) : Nat := g.slipWindow * 1000

/-- The odometer enters LOCKED: the first slip window opens and a LOCK report is made (R10, R14). -/
def Tod.gainLock (o : Tod) (t : Track) : Tod :=
  { o with
    lock := .locked, frontTravel := 0, rearTravel := 0
    marker := some { track := t, state := .locked, cause := .acquired, position := o.position } }

/-- The two travels differ by more than the slip limit, in either sense (R13). -/
def slipped (g : Geometry) (front rear : Nat) : Bool :=
  decide (g.slipLimit < front - rear) || decide (g.slipLimit < rear - front)

/-- A front pulse in FORWARD is evaluated for lock, and in LOCKED for slip at the end of the window (R9, R10, R13).
`reference` is the interval measured at the previous pulse. -/
def State.evaluateLock (s : State) (t : Track) (reference : Option Nat) : State :=
  let o := s.tod.get t
  let g := s.geometry
  match o.lock with
  | .unlocked => s.setTod t { o with lock := .acquiring, runCount := 1 }
  | .acquiring =>
    if inBand reference o.lastInterval then
      if g.lockCount ≤ o.runCount + 1 then s.setTod t ({ o with runCount := o.runCount + 1 }.gainLock t)
      else s.setTod t { o with runCount := o.runCount + 1 }
    else s.setTod t { o with runCount := 1 }
  | .locked =>
    let travel := o.frontTravel + (g.pulses.get t).front
    if g.slipWindowMicro ≤ travel then
      if slipped g travel o.rearTravel then s.loseLock t .slip
      else s.setTod t { o with frontTravel := 0, rearTravel := 0 }
    else s.setTod t { o with frontTravel := travel }

/-- A front pulse that a counting odometer takes (R4, R5, R9, R15). -/
def State.takeFrontPulse (s : State) (t : Track) (time : Nat) : State :=
  let o := s.tod.get t
  let length := (s.geometry.pulses.get t).front
  if o.direction = .forward then
    (((s.setTod t ((o.timed length time).advanced length)).handAdvance t).evaluateLock t o.lastInterval)
  else s.setTod t (o.timed length time)

/-- FRONT_PULSE_ARRIVAL (R4); not taken in CONFIG and STANDBY (R3). -/
def execFrontPulseArrival (track : Track) (time : Nat) (s : State) : Host.Outcome State Fault Refusal :=
  .next (s.unlessHeld fun s => if s.mdc.mode.counting then s.takeFrontPulse track time else s)

/-! ## Rear pulse (R12) -/

/-- A rear pulse that a counting odometer takes: on a LOCKED track in FORWARD it adds to the rear window travel, and
slip is found where that exceeds the window plus the slip limit (R12). -/
def State.takeRearPulse (s : State) (t : Track) : State :=
  let o := s.tod.get t
  let g := s.geometry
  if o.direction = .forward ∧ o.lock = .locked then
    let travel := o.rearTravel + (g.pulses.get t).rear
    if g.slipWindowMicro + g.slipLimit < travel then s.loseLock t .slip
    else s.setTod t { o with rearTravel := travel }
  else s

/-- REAR_PULSE_ARRIVAL (R12); not taken in CONFIG and STANDBY (R3). -/
def execRearPulseArrival (track : Track) (s : State) : Host.Outcome State Fault Refusal :=
  .next (s.unlessHeld fun s => if s.mdc.mode.counting then s.takeRearPulse track else s)

/-! ## Standstill (R6) -/

/-- An odometer as standstill leaves it: the speed 0, the interval and the pulse time absent, the timer stopped, and
an ACQUIRING track UNLOCKED (R6). -/
def Tod.stood (o : Tod) : Tod :=
  { o with
    speed := 0, lastInterval := none, previousTime := none, standstill := .stopped
    lock := if o.lock = .acquiring then .unlocked else o.lock
    runCount := if o.lock = .acquiring then 0 else o.runCount }

/-- STANDSTILL (R6): the expiry of a running standstill timer; a stopped timer has none (assumption log 4). -/
def execStandstill (track : Track) (s : State) : Host.Outcome State Fault Refusal :=
  .next (s.unlessHeld fun s =>
    if (s.tod.get track).standstill = .stopped then s else s.setTod track (s.tod.get track).stood)

end Sys2Proof.Machine
end

