-- ==== Sys2Proof/Machine/Preview.lean ====
section
/-! DEFINITION. The Preview Store's requests (chapter 02): PREVIEW and WITHDRAW. -/

namespace Sys2Proof.Machine

/-! ## The eight checks (R25 to R33) -/

/-- The position of a track's front corner (R2). -/
def State.frontPosition (s : State) (t : Track) : Position := (s.tod.get t).position

/-- The lead reach of a segment: the front corner's position plus the live front lead (R24). -/
def State.leadReach (s : State) (g : Segment) : Position :=
  forward (s.frontPosition g.track)
    (liveLead (s.followedProfile (g.track.corner .front)) (s.tod.get g.track).speed g)

/-- Check 3 fails: the record's track is LEFT or RIGHT and its odometer is not LOCKED (R27). -/
def State.trackUnlocked (s : State) (r : SegmentRecord) : Bool :=
  match trackOf r.track with
  | none => false
  | some t => (s.tod.get t).lock != .locked

/-- The start lies more than 250,000 mm ahead of the front corner (R28). -/
def State.tooFarAhead (s : State) (g : Segment) : Bool :=
  ahead g.start (s.frontPosition g.track)
    && decide (Config.lookAhead < difference g.start (s.frontPosition g.track))

/-- The record as check 4 reads it: the segment, where every field and the look-ahead are in range (R28). -/
def State.inRange (s : State) (r : SegmentRecord) : Option Segment :=
  match segmentOf r with
  | none => none
  | some g => if s.tooFarAhead g then none else some g

/-- Check 5 fails: the start is not ahead of the front corner (R28), or does not lie beyond the lead reach (R29). -/
def State.tooLate (s : State) (g : Segment) : Bool :=
  !ahead g.start (s.frontPosition g.track) || !ahead g.start (s.leadReach g)

/-- Check 6 fails: the segment overlaps a committed segment of its track (R30). -/
def State.overlapsCommitted (s : State) (g : Segment) : Bool :=
  (s.pvs.lists.get g.track).any fun x => x.state.committed && x.segment.overlaps g

/-- A slot that the new segment would supersede: PENDING, on its track, and overlapping it (R31). -/
def Slot.supersededBy (x : Slot) (g : Segment) : Bool :=
  x.state == .pending && x.segment.track == g.track && x.segment.overlaps g

/-- Check 7 fails: the tag is held by a segment that the new one would not supersede (R31). -/
def State.tagTaken (s : State) (g : Segment) : Bool :=
  s.pvs.held.any fun x => x.segment.tag == g.tag && !x.supersededBy g

/-- The slots that the new segment supersedes (R31), in ascending order of start, as the reply names their tags (R35). -/
def State.superseded (s : State) (g : Segment) : List Slot :=
  inStartOrder ((s.pvs.lists.get g.track).filter fun x => x.supersededBy g)

/-- The distance by which a segment's start lies ahead of the front corner of its track (R33). -/
def State.distanceAhead (s : State) (g : Segment) : Nat := difference g.start (s.frontPosition g.track)

/-- The slot farther ahead; at equal distances the first one stays, which is the LEFT one (R33). -/
def State.fartherAhead (s : State) (best : Option Slot) (x : Slot) : Option Slot :=
  match best with
  | none => some x
  | some b => if s.distanceAhead b.segment < s.distanceAhead x.segment then some x else some b

/-- The eviction candidate: the PENDING segment with the greatest distance ahead (R33). -/
def State.evictionCandidate (s : State) : Option Slot :=
  (s.pvs.held.filter fun x => x.state = .pending).foldl s.fartherAhead none

/-- The candidate, where it lies farther ahead than the new segment (R32, R33). -/
def State.evictable (s : State) (g : Segment) : Option Slot :=
  match s.evictionCandidate with
  | none => none
  | some x => if s.distanceAhead g < s.distanceAhead x.segment then some x else none

/-- The finding of the eight checks (R25): a refusal, or acceptance with the slot to evict, if one is. -/
inductive PreviewFinding where
  | refused (code : ReplyCode)
  | accepted (segment : Segment) (evicted : Option Slot)
  deriving DecidableEq, Repr

/-- Checks 5 to 8 on a segment in range (R29 to R33). -/
def State.judgeSegment (s : State) (g : Segment) : PreviewFinding :=
  if s.tooLate g then .refused .late
  else if s.overlapsCommitted g then .refused .late
  else if s.tagTaken g then .refused .dupTag
  else if 1 ≤ s.pvs.free + (s.superseded g).length then .accepted g none
  else
    match s.evictable g with
    | some x => .accepted g (some x)
    | none => .refused .full

/-- The eight checks in order; the first that fails gives the outcome (R25). -/
def State.judgeRecord (s : State) (r : SegmentRecord) : PreviewFinding :=
  if s.mdc.mode ≠ .run then .refused .mode
  else if s.pvs.preview ≠ .active then .refused .suspended
  else if s.trackUnlocked r then .refused .unlockedTrack
  else
    match s.inRange r with
    | none => .refused .range
    | some g => s.judgeSegment g

/-! ## Acceptance (R34, R35) -/

/-- The slots of a list that acceptance leaves in it: all but the superseded and the evicted ones (R34). -/
def Store.staying (p : Store) (g : Segment) (evicted : Option Slot) (t : Track) : List Slot :=
  (p.lists.get t).filter fun x => !x.supersededBy g && evicted.all fun y => x.serial != y.serial

/-- The store after acceptance: superseded and evicted segments are released, the new one takes a FREE slot, PENDING, and
is placed in its track's list (R34). -/
def Store.accept (p : Store) (g : Segment) (evicted : Option Slot) : Store :=
  let placed := insertByStart (Slot.accepted p.nextSerial g) (p.staying g evicted g.track)
  { p with
    lists := PerTrack.of fun t => arrange (if t = g.track then placed else p.staying g evicted t)
    nextSerial := p.nextSerial + 1 }

/-- PREVIEW is judged (R25, R34, R35). -/
def judgePreview (r : SegmentRecord) (s : State) : State × Reply :=
  match s.judgeRecord r with
  | .refused code => (s, .preview code r.tag 0 [])
  | .accepted g evicted =>
    (s.setPvs (s.pvs.accept g evicted),
      .preview .ok r.tag ((evicted.map fun x => x.segment.tag).getD 0) ((s.superseded g).map fun x => x.segment.tag))

/-- PREVIEW. -/
def takePreview (r : SegmentRecord) (s : State) : State :=
  s.takeRequestOfLength .preview (bodyOfRecord r).length (judgePreview r)

/-- PREVIEW (R25). -/
def execPreview (record : SegmentRecord) (s : State) : Host.Outcome State Fault Refusal := .next (takePreview record s)

/-! ## WITHDRAW (R37) -/

/-- The slot that holds a tag. -/
def Store.withTag (p : Store) (tag : Half) : Option Slot := p.held.find? fun x => x.segment.tag == tag

/-- WITHDRAW is judged (R37). -/
def judgeWithdraw (tag : Half) (s : State) : State × Reply :=
  if tag = 0 then (s, .withdraw .range tag)
  else
    match s.pvs.withTag tag with
    | none => (s, .withdraw .unknownTag tag)
    | some x =>
      if x.state.committed then (s, .withdraw .late tag)
      else (s.setPvs (s.pvs.release x.serial), .withdraw .ok tag)

/-- WITHDRAW. -/
def takeWithdraw (tag : Half) (s : State) : State := s.takeRequest (judgeWithdraw tag)

/-- WITHDRAW (R37). -/
def execWithdraw (tag : Half) (s : State) : Host.Outcome State Fault Refusal := .next (takeWithdraw tag s)

end Sys2Proof.Machine
end

