-- ==== Sys2Proof/Machine/Link.lean ====
section
/-! DEFINITION. Control Link (chapter 11): SELECT_ASSERTION, STATUS, FETCH, SILENCE_EXPIRY, ADMISSION, and the release of
select after any bits, MALFORMED_FRAME and NO_ROOM. -/

namespace Sys2Proof.Machine

/-! ## SELECT_ASSERTION (R189) -/

/-- SELECT_ASSERTION: the status byte and the copy of the head record are fixed for the exchange (R189). -/
def execSelectAssertion (s : State) : Host.Outcome State Fault Refusal :=
  .next (s.unlessHeld fun s => s.setLif { s.lif with exchange := some s.lif.assertion })

/-! ## STATUS (R198) -/

/-- What STATUS reports of a track (R16). -/
def Tod.status (o : Tod) : TrackStatus := { position := o.position, speed := o.speed, lock := o.lock }

/-- What STATUS reports of a corner (R110, R152). -/
def State.cornerStatus (s : State) (c : Corner) : CornerStatus :=
  { driver := (s.vd.get c).state, setpoint := (s.vd.get c).setpoint, lastDemand := (s.cc.get c).lastDemand
    accrued := accruedSet (s.cc.get c).bits, balance := (s.vd.get c).balance, temperature := (s.vd.get c).temperature
    followed := (s.cc.get c).followed, sensor := (s.cc.get c).sensor }

/-- The number of slots in each state (R47). -/
def Store.counts (p : Store) : SlotCounts :=
  { free := p.free, pending := p.count .pending, frontLead := p.count .frontLead, frontOn := p.count .frontOn
    between := p.count .between, rearLead := p.count .rearLead, rearOn := p.count .rearOn, spent := p.count .spent }

/-- The STATUS reply, assembled from every block as it stands (R198). -/
def State.statusReply (s : State) : StatusReply :=
  { mode := s.mdc.mode, preview := s.pvs.preview, tracks := PerTrack.of fun t => (s.tod.get t).status
    corners := PerCorner.of s.cornerStatus, slots := s.pvs.counts, queueCount := s.lif.queue.length }

/-- STATUS changes no state; it counts the queue before its own reply is placed (R191, R198). -/
def judgeStatus (s : State) : State × Reply := (s, .status s.statusReply)

/-- STATUS. -/
def takeStatus (s : State) : State := s.takeRequest judgeStatus

/-- STATUS (R198). -/
def execStatus (s : State) : Host.Outcome State Fault Refusal := .next (takeStatus s)

/-! ## FETCH (R194) -/

/-- A body of a length carries the whole copy of the exchange (R194). -/
def Exchange.carriedBy (x : Exchange) (length : Nat) : Bool :=
  match x.copy with
  | none => false
  | some r => decide (r.body.length ≤ length)

/-- The head record leaves the queue where the exchange has carried its whole copy (R194). -/
def State.removeCarried (s : State) (x : Exchange) (length : Nat) : State :=
  if x.carriedBy length then s.setLif { s.lif with queue := s.lif.queue.tail } else s

/-- FETCH: it makes no reply and is never answered NO_ROOM (R194). -/
def takeFetch (body : List Byte) (s : State) : State :=
  s.unlessHeld fun s =>
    if RequestKind.permits .fetch body.length then
      s.delivered.removeCarried s.lif.released body.length
    else s.refuseFrame .malformed

/-- FETCH (R194). -/
def execFetch (body : List Byte) (s : State) : Host.Outcome State Fault Refusal := .next (takeFetch body s)

/-! ## SILENCE_EXPIRY (R195, R39) -/

/-- The expiry at the store: in RUN with preview ACTIVE, preview is SUSPENDED, a MODE report is made, and a silence flush
frees every PENDING segment (R39). -/
def State.silenceAtStore (s : State) : State :=
  if s.mdc.mode = .run ∧ s.pvs.preview = .active then
    (s.setPvs { s.pvs.silenceFlush with preview := .suspended }).makeModeReport .previewSuspended s.mdc.mode
  else s

/-- SILENCE_EXPIRY (R195): the timer is stopped until the next well-formed frame; a stopped timer has no expiry
(assumption log 4). -/
def execSilenceExpiry (s : State) : Host.Outcome State Fault Refusal :=
  .next (s.unlessHeld fun s =>
    if s.lif.silence = .stopped then s else (s.setLif { s.lif with silence := .stopped }).silenceAtStore)

/-! ## ADMISSION (R193) -/

/-- The markers in which reports wait (R193). -/
inductive Marker where
  | fault (corner : Corner)
  | mode
  | lock (track : Track)
  | profile
  | condition (corner : Corner) (bit : AccruedBit)
  | passage
  deriving DecidableEq, Repr

/-- The markers in the order in which LIF takes their reports (R193). -/
def markerOrder : List Marker :=
  corners.map .fault ++ [.mode] ++ tracks.map .lock ++ [.profile]
    ++ corners.flatMap (fun c => accruedBits.map (.condition c)) ++ [.passage]

/-- The report that waits in a marker; among the SPENT slots, the oldest by the spent order (R193, R68, R120). -/
def State.waiting (s : State) : Marker → Option Report
  | .fault c => (s.vd.get c).faultMarker.map .fault
  | .mode => s.mdc.marker.map .mode
  | .lock t => (s.tod.get t).marker.map .lock
  | .profile => s.cfs.profileMarker.map .profile
  | .condition c b => ((s.cc.get c).bits.get b).marker.map fun origin => .condition { corner := c, bit := b, origin }
  | .passage => s.pvs.oldestSpent.map fun x => .passage x.passageReport

/-- What the admission of a marker's report does at its owner: the marker is emptied (R193); the superseded count becomes
0 (R175), the bit REPORTED (R120), the slot FREE (R70). -/
def State.emptyMarker (s : State) : Marker → State
  | .fault c => s.setVd c { s.vd.get c with faultMarker := none }
  | .mode => s.setMdc { s.mdc with marker := none, supersededCount := 0 }
  | .lock t => s.setTod t { s.tod.get t with marker := none }
  | .profile => s.setCfs { s.cfs with profileMarker := none }
  | .condition c b => s.setCc c { s.cc.get c with bits := (s.cc.get c).bits.set b .reported }
  | .passage =>
    match s.pvs.oldestSpent with
    | none => s
    | some x => s.setPvs (s.pvs.release x.serial)

/-- The first waiting report by the order of markers (R193). -/
def State.firstWaiting (s : State) : Option (Marker × Report) :=
  markerOrder.findSome? fun m => (s.waiting m).map fun r => (m, r)

/-- Up to `n` admissions, one at a time, while the queue holds 27 records or fewer and a report waits (R193). -/
def State.admitReports : Nat → State → State
  | 0, s => s
  | n + 1, s =>
    if s.lif.queue.length < Config.reportCapacity then
      match s.firstWaiting with
      | none => s
      | some (m, r) => ((s.emptyMarker m).place (.report r)).admitReports n
    else s

/-- ADMISSION (R193): LIF goes on while both conditions hold, which is at most 28 admissions (assumption log 5). -/
def execAdmission (s : State) : Host.Outcome State Fault Refusal :=
  .next (s.unlessHeld fun s => s.admitReports Config.reportCapacity)

/-! ## Any frame at the release of select (R190) -/

/-- A well-formed request is taken as its command is; no other command is a request. -/
def runRequest (i : Instr) (s : State) : State :=
  match i with
  | .identify => takeIdentify s
  | .setGroup group contents => takeSetGroup group contents s
  | .readGroup group => takeReadGroup group s
  | .setLocks locks => takeSetLocks locks s
  | .writeVariant code capClass => takeWriteVariant code capClass s
  | .start => takeStart s
  | .standby => takeStandby s
  | .restart => takeRestart s
  | .motion direction => takeMotion direction s
  | .preview record => takePreview record s
  | .withdraw tag => takeWithdraw tag s
  | .selectProfile target => takeSelectProfile target s
  | .trimAhead corner count => takeTrimAhead corner count s
  | .recheck corner => takeRecheck corner s
  | .setReporting corner bits => takeSetReporting corner bits s
  | .clearConditions corner bits => takeClearConditions corner bits s
  | .readOrigin corner => takeReadOrigin corner s
  | .status => takeStatus s
  | .fetch body => takeFetch body s
  | .selectAssertion => s
  | .malformedFrame _ => s
  | .noRoom _ => s
  | .fullReset _ => s
  | .resetRelease => s
  | .frontPulseArrival _ _ => s
  | .rearPulseArrival _ => s
  | .standstill _ => s
  | .update _ _ => s
  | .currentSample _ _ => s
  | .trackingTimerExpiry _ => s
  | .checkCompletion _ _ => s
  | .trimCompletion _ _ => s
  | .trimTimerExpiry _ => s
  | .silenceExpiry => s
  | .admission => s

/-- The release of select after any bits: they are judged by findings 1 to 7 of R190, and what they are is taken
(assumption log 7). -/
def takeFrame (frame : RawFrame) (s : State) : State :=
  s.unlessHeld fun s =>
    match judgeFrame frame with
    | .malformed => s.refuseFrame .malformed
    | .crcError => s.refuseFrame .crcError
    | .wellFormed request => runRequest request s

/-- MALFORMED_FRAME (R190): bits found MALFORMED or CRC_ERROR change the previous-frame outcome alone. -/
def execMalformedFrame (frame : RawFrame) (s : State) : Host.Outcome State Fault Refusal := .next (takeFrame frame s)

/-- NO_ROOM (R190): a well-formed frame other than FETCH or RESTART, while the queue holds 32 records, restarts the
silence timer and is handed to the store as an arrival. -/
def execNoRoom (frame : RawFrame) (s : State) : Host.Outcome State Fault Refusal := .next (takeFrame frame s)

end Sys2Proof.Machine
end

