-- ==== Sys2Proof/Machine/Dispatch.lean ====
section
/-! DEFINITION. The effect of each command on everything but the queue of waiting commands: one arm for each row of the
table, each a direct call of its meaning. -/

namespace Sys2Proof.Machine

def exec (i : Instr) (s : State) : Host.Outcome State Fault Refusal :=
  match i with
  | .selectAssertion => Sys2Proof.Machine.execSelectAssertion s
  | .malformedFrame frame => Sys2Proof.Machine.execMalformedFrame frame s
  | .noRoom frame => Sys2Proof.Machine.execNoRoom frame s
  | .identify => Sys2Proof.Machine.execIdentify s
  | .setGroup group contents => Sys2Proof.Machine.execSetGroup group contents s
  | .readGroup group => Sys2Proof.Machine.execReadGroup group s
  | .setLocks locks => Sys2Proof.Machine.execSetLocks locks s
  | .writeVariant code capClass => Sys2Proof.Machine.execWriteVariant code capClass s
  | .start => Sys2Proof.Machine.execStart s
  | .standby => Sys2Proof.Machine.execStandby s
  | .restart => Sys2Proof.Machine.execRestart s
  | .motion direction => Sys2Proof.Machine.execMotion direction s
  | .preview record => Sys2Proof.Machine.execPreview record s
  | .withdraw tag => Sys2Proof.Machine.execWithdraw tag s
  | .selectProfile target => Sys2Proof.Machine.execSelectProfile target s
  | .trimAhead corner count => Sys2Proof.Machine.execTrimAhead corner count s
  | .recheck corner => Sys2Proof.Machine.execRecheck corner s
  | .setReporting corner bits => Sys2Proof.Machine.execSetReporting corner bits s
  | .clearConditions corner bits => Sys2Proof.Machine.execClearConditions corner bits s
  | .readOrigin corner => Sys2Proof.Machine.execReadOrigin corner s
  | .status => Sys2Proof.Machine.execStatus s
  | .fetch body => Sys2Proof.Machine.execFetch body s
  | .fullReset cause => Sys2Proof.Machine.execFullReset cause s
  | .resetRelease => Sys2Proof.Machine.execResetRelease s
  | .frontPulseArrival track time => Sys2Proof.Machine.execFrontPulseArrival track time s
  | .rearPulseArrival track => Sys2Proof.Machine.execRearPulseArrival track s
  | .standstill track => Sys2Proof.Machine.execStandstill track s
  | .update corner raw => Sys2Proof.Machine.execUpdate corner raw s
  | .currentSample corner current => Sys2Proof.Machine.execCurrentSample corner current s
  | .trackingTimerExpiry corner => Sys2Proof.Machine.execTrackingTimerExpiry corner s
  | .checkCompletion corner resistance => Sys2Proof.Machine.execCheckCompletion corner resistance s
  | .trimCompletion corner resistance => Sys2Proof.Machine.execTrimCompletion corner resistance s
  | .trimTimerExpiry corner => Sys2Proof.Machine.execTrimTimerExpiry corner s
  | .silenceExpiry => Sys2Proof.Machine.execSilenceExpiry s
  | .admission => Sys2Proof.Machine.execAdmission s

end Sys2Proof.Machine
end

