-- ==== Sys2Proof/Safety.lean ====
section
/-! DEFINITION. What the statements about this part speak of: when a request is delivered, and the invariants that the
manual states of the part in every state it reaches. -/

namespace Sys2Proof.Machine

/-- The part delivers a request: the reset input is not held, and the queue has a place for the reply (R174, R190). -/
abbrev State.delivers (s : State) : Prop := s.resetHeld = false ∧ s.lif.queue.length < Config.queueCapacity

/-- The command as LIF takes it: a frame of any bits that is well-formed stands for its request (assumption log 7). -/
def takenAs (c : Instr) : Instr :=
  match c with
  | .malformedFrame f =>
    match judgeFrame f with
    | .wellFormed r => r
    | .malformed => c
    | .crcError => c
  | .noRoom f =>
    match judgeFrame f with
    | .wellFormed r => r
    | .malformed => c
    | .crcError => c
  | other => other

/-! ## The Link Interface -/

/-- A record is a report. -/
def Record.isReport : Record → Bool
  | .reply _ => false
  | .report _ => true

/-- The outbound queue holds at most 32 records, and at most 28 of them are reports (R192). -/
def State.queueBounded (s : State) : Prop :=
  s.lif.queue.length ≤ 32 ∧ (s.lif.queue.filter Record.isReport).length ≤ 28

/-- The copy that an exchange shifts out is a copy of the head record as long as the exchange lasts (R194). -/
def State.copyIsHead (s : State) : Prop :=
  ∀ x r, s.lif.exchange = some x → x.copy = some r → s.lif.queue.head? = some r

/-! ## Configuration -/

/-- Every SET group passes the checks of its SET_GROUP, with the flags of group 3 and the current cap as they stand
(R177 to R180, R186). -/
def State.contentsPass (s : State) : Prop :=
  (∀ m, s.cfs.valveMaps = some m →
    ∃ g, s.cfs.geometry = some g ∧ m.front.maps.length = mapsOfFlag g.separateFront
      ∧ m.rear.maps.length = mapsOfFlag g.separateRear ∧ ∀ x ∈ m.maps, x.passes s.mapCap = true)
  ∧ (∀ p, s.cfs.profileA = some p → p.passes = true) ∧ (∀ p, s.cfs.profileB = some p → p.passes = true)
  ∧ (∀ g, s.cfs.geometry = some g → g.passes = true)
  ∧ (∀ l, s.cfs.limits = some l → l.passes s.cfs.variant = true)
  ∧ (∀ v, s.cfs.variant = some v → v.cap ∈ capClasses)

/-- In STARTING, RUN and SAFE every group is SET and the variant record is WRITTEN (R177, R186). -/
def State.configured (s : State) : Prop :=
  s.mdc.mode.counting = true → s.allGroupsSet = true ∧ s.cfs.variant.isSome = true

/-! ## Drivers and modes -/

/-- The number of drivers in FAULTED. -/
def State.faultedDrivers (s : State) : Nat := (corners.filter fun c => (s.vd.get c).state = .faulted).length

/-- The driver states that a part mode admits (09_operating_modes.md, the table of modes). -/
def PartMode.admits (m : PartMode) (d : DriverState) : Bool :=
  match m with
  | .config => d == .off
  | .standby => d == .off
  | .starting => d == .checking || d == .armed || d == .faulted
  | .run => d == .drive || d == .trim || d == .hold || d == .checking || d == .faulted
  | .safe => d == .released || d == .faulted

/-- Every driver is in a state that the part mode admits; the faulted count is the number of drivers in FAULTED, at most
two, and two in SAFE alone (R160, R161). -/
def State.modesAgree (s : State) : Prop :=
  (∀ c, s.mdc.mode.admits (s.vd.get c).state = true) ∧ s.mdc.faultedCount = s.faultedDrivers
    ∧ s.mdc.faultedCount ≤ 2 ∧ (s.mdc.mode ≠ .safe → s.mdc.faultedCount ≤ 1)

/-- The driver state carries current (R125). -/
def DriverState.carriesCurrent : DriverState → Bool
  | .checking => true
  | .drive => true
  | .trim => true
  | .hold => true
  | .off => false
  | .armed => false
  | .released => false
  | .faulted => false

/-- The setpoint is what the table of R125 gives the driver state; in TRIM it is what it was at the start. -/
def Vd.setpointAgrees (v : Vd) (m : ValveMap) : Prop :=
  match v.state with
  | .off => v.setpoint = 0
  | .checking => v.setpoint = 250
  | .armed => v.setpoint = 0
  | .drive => v.setpoint = m.current v.heldDemand
  | .trim => True
  | .hold => v.setpoint = m.holdCurrent
  | .released => v.setpoint = 0
  | .faulted => v.setpoint = 0

/-- Every setpoint is what R125 gives, and at most the current cap (R125). -/
def State.setpointsAgree (s : State) : Prop :=
  ∀ c, (s.vd.get c).setpointAgrees (s.map c) ∧ (s.vd.get c).setpoint ≤ s.mapCap

/-- The trim balance is at least -4, and the pull-in trims asked for and not yet made leave it so; a PULL_IN trim has a
pull-in to make, a DUE trim a balance above 0 (R137, R139, R142, R143). -/
def Vd.trimsBounded (v : Vd) : Prop :=
  -4 ≤ v.balance ∧ v.pullIn ≤ 4 ∧ (v.balance ≤ 0 → -4 ≤ v.balance - v.pullIn)
    ∧ (v.state = .trim → ∀ t, v.trim = some t → match t.kind with
      | .due => 0 < v.balance
      | .pullIn => 0 < v.pullIn)

/-- The trim balance of every driver is bounded from below (R137). -/
def State.trimsBounded (s : State) : Prop := ∀ c, (s.vd.get c).trimsBounded

/-- The held demand is the corner's last demand (R129). -/
def State.heldIsLast (s : State) : Prop := ∀ c, (s.vd.get c).heldDemand = (s.cc.get c).lastDemand

/-! ## The profile selection -/

/-- With no switch pending every corner follows the active profile; with one pending, its target is another profile, and
some corner has not switched yet (R79, R85). -/
def State.selectionAgrees (s : State) : Prop :=
  match s.cfs.pendingProfile with
  | none => ∀ c, (s.cc.get c).followed = s.cfs.active
  | some p => p ≠ s.cfs.active ∧ ∃ c, (s.cc.get c).followed ≠ p

/-- A switch is pending in RUN and SAFE alone (R81, R82, R86). -/
def State.pendingAgrees (s : State) : Prop :=
  s.cfs.pendingProfile ≠ none → s.mdc.mode = .run ∨ s.mdc.mode = .safe

/-- Between `s` and `t` the corner has taken the pending profile, at its position in `s` (R83); where every other corner
had, the switch has completed with its PROFILE report, and where another had not, the selection is as it was (R85). -/
def State.hasSwitched (s t : State) (c : Corner) : Prop :=
  ∃ p, s.cfs.pendingProfile = some p ∧ (t.cc.get c).followed = p ∧ (t.cc.get c).switchReference = .notSet
    ∧ (t.cc.get c).switchPosition = some (s.cornerPosition c)
    ∧ ((∀ e, e ≠ c → (s.cc.get e).followed = p) → t.cfs =
      { s.cfs with
        active := p, pendingProfile := none
        profileMarker := some
          { active := p, previous := s.cfs.active
            positions := PerCorner.of fun e => (t.cc.get e).switchPosition } })
    ∧ ((∃ e, e ≠ c ∧ (s.cc.get e).followed ≠ p) → t.cfs = s.cfs)

/-- Between `s` and `t` the corner has kept its profile, and the selection is as it was. -/
def State.keepsProfile (s t : State) (c : Corner) : Prop :=
  (t.cc.get c).followed = (s.cc.get c).followed ∧ (t.cc.get c).switchReference = (s.cc.get c).switchReference
    ∧ (t.cc.get c).switchPosition = (s.cc.get c).switchPosition ∧ t.cfs = s.cfs

/-! ## Odometers and the store -/

/-- A LOCKED track has direction FORWARD, and no track is in ACQUIRING or LOCKED in CONFIG and STANDBY (R8, R17). -/
def State.locksAgree (s : State) : Prop :=
  ∀ t, ((s.tod.get t).lock = .locked → (s.tod.get t).direction = .forward)
    ∧ (s.mdc.mode.counting = false → (s.tod.get t).lock = .unlocked)

/-- Preview is ACTIVE in RUN alone (R38). -/
def State.previewAgrees (s : State) : Prop := s.pvs.preview = .active → s.mdc.mode = .run

/-- A segment in a state other than SPENT is on a LOCKED track, and the part is in RUN (R45, R57). -/
def State.passageAgrees (s : State) : Prop :=
  ∀ t, ∀ x ∈ s.pvs.lists.get t, x.state ≠ .spent → s.mdc.mode = .run ∧ (s.tod.get t).lock = .locked

/-- The place of a slot state in the order of the passage states (R55). -/
def SlotState.rank : SlotState → Nat
  | .pending => 0
  | .frontLead => 1
  | .frontOn => 2
  | .between => 3
  | .rearLead => 4
  | .rearOn => 5
  | .spent => 6

/-- The tags that the store holds. -/
def Store.tags (p : Store) : List Half := p.held.map fun x => x.segment.tag

/-- Two slots do not overlap. -/
def Slot.apart (x y : Slot) : Prop := x.segment.overlaps y.segment = false

/-- The store holds at most 64 segments, with tags other than 0 of which no two are the same; each stands in the list of
its own track, no two of a track overlap, and every length is in its range (R18, R21, R22). -/
def Store.sound (p : Store) : Prop :=
  p.held.length ≤ 64 ∧ p.tags.Nodup ∧ (0 : Half) ∉ p.tags
    ∧ (∀ t, ∀ x ∈ p.lists.get t, x.segment.track = t) ∧ (∀ t, (p.lists.get t).Pairwise Slot.apart)
    ∧ ∀ x ∈ p.held, 10 ≤ x.segment.length ∧ x.segment.length ≤ 2000

/-- Each list is in ascending order of start (R21). -/
def Store.ordered (p : Store) : Prop :=
  ∀ t, (p.lists.get t).Pairwise fun x y => ahead y.segment.start x.segment.start = true

/-- `ys` is the slots `xs` in ascending order of start; where R1 gives them no ascending order, `ys` is `xs` as it stands
(assumption log 21). -/
def arranges (xs ys : List Slot) : Prop :=
  let rising := fun ws : List Slot => ws.Pairwise fun x y => ahead y.segment.start x.segment.start = true
  (∀ ws, ws.Perm xs → rising ws → ys = ws) ∧ ((∀ ws, ws.Perm xs → ¬rising ws) → ys = xs)

/-- Each list is in ascending order of start wherever its segments have one by R1 (R21). -/
def Store.arranged (p : Store) : Prop := ∀ t, arranges (p.lists.get t) (p.lists.get t)

/-- The starts of each list lie within half the range of positions, where the comparison of R1 is an order (assumption
log 21). -/
def Store.withinHalf (p : Store) : Prop :=
  ∀ t, ∃ base : Position, ∀ x ∈ p.lists.get t, (x.segment.start - base).toNat < 2147483648

/-- A slot has a spent place exactly while it is SPENT, which it stays only with report yes (R20, R43, R67); no two have the
same place, and the next place is the last one (assumption log 13). -/
def Store.placed (p : Store) : Prop :=
  (∀ x ∈ p.held, (x.state = .spent ↔ x.spentPlace.isSome = true) ∧ (x.state = .spent → x.segment.report = true)
      ∧ ∀ n, x.spentPlace = some n → n < p.nextSpent)
    ∧ (p.held.filterMap Slot.spentPlace).Nodup

/-- The model's own names: no two slots have the same serial, and the next one is new (assumption log 13). -/
def Store.named (p : Store) : Prop :=
  (p.held.map Slot.serial).Nodup ∧ ∀ x ∈ p.held, x.serial < p.nextSerial

end Sys2Proof.Machine
end

