-- ==== Sys2Proof/WellFormed.lean ====
section
/-! DEFINITION. The check of a command: what the table's row can stand for. -/

namespace Sys2Proof

open Machine

/-- A request's body has a length permitted for its kind (R190, finding 4), as the request catalogue lists them. -/
def lengthPermitted (i : Instr) : Bool :=
  match kindOfRequest i with
  | some k => k.permits (bodyOfRequest i).length
  | none => true

/-- The command is one that its row of the table describes: a request with a body of a permitted length; frames of
MALFORMED_FRAME that R190 finds MALFORMED or CRC_ERROR; frames of NO_ROOM that are well-formed requests other than
FETCH and RESTART; ride-height samples from -32,768 to +32,767 (R92). -/
def Instr.wellFormed (i : Instr) : Bool :=
  match i with
  | .malformedFrame f =>
    match judgeFrame f with
    | .malformed => true
    | .crcError => true
    | .wellFormed _ => false
  | .noRoom f =>
    match judgeFrame f with
    | .malformed => false
    | .crcError => false
    | .wellFormed r => kindOfRequest r != some .fetch && kindOfRequest r != some .restart
  | .update _ raw => decide (-32768 ≤ raw) && decide (raw ≤ 32767)
  | .selectAssertion => true
  | .identify => lengthPermitted i
  | .setGroup _ _ => lengthPermitted i
  | .readGroup _ => lengthPermitted i
  | .setLocks _ => lengthPermitted i
  | .writeVariant _ _ => lengthPermitted i
  | .start => lengthPermitted i
  | .standby => lengthPermitted i
  | .restart => lengthPermitted i
  | .motion _ => lengthPermitted i
  | .preview _ => lengthPermitted i
  | .withdraw _ => lengthPermitted i
  | .selectProfile _ => lengthPermitted i
  | .trimAhead _ _ => lengthPermitted i
  | .recheck _ => lengthPermitted i
  | .setReporting _ _ => lengthPermitted i
  | .clearConditions _ _ => lengthPermitted i
  | .readOrigin _ => lengthPermitted i
  | .status => lengthPermitted i
  | .fetch _ => lengthPermitted i
  | .fullReset _ => true
  | .resetRelease => true
  | .frontPulseArrival _ _ => true
  | .rearPulseArrival _ => true
  | .standstill _ => true
  | .currentSample _ _ => true
  | .trackingTimerExpiry _ => true
  | .checkCompletion _ _ => true
  | .trimCompletion _ _ => true
  | .trimTimerExpiry _ => true
  | .silenceExpiry => true
  | .admission => true

end Sys2Proof
end

