-- ==== Sys2Proof/Certificates/Slice0/Obligations.lean ====
section
/-! DEFINITION. The statements for the provers, chapter by chapter. In the statements of a request, `s.delivers` says that
the reset input is not held and the queue has a place for the reply, and `s.delivered` is the state in which the owner
judges it: what LIF and the store do before that is FrameArrival's. -/

section Statements

open Sys2Proof Sys2Proof.Machine

/-! ## Control Link (chapter 11) -/

/-- A step takes the command at the front of the queue and is that command's meaning on the rest; with no command
waiting the block idles (the model's choice, assumption log 1). -/
def Obligations.StepTakesTheFrontCommand : Prop :=
  (∀ (c : Instr) (rest : List Instr) (s : State),
      step { s with pending := c :: rest } = exec c { s with pending := rest })
    ∧ ∀ s : State, s.pending = [] → step s = .next s

/-- R189, R198, R199: the status byte and the copy are those of the moment of the assertion, and they are shifted out in
this order, with bytes of value 0 after them; the layout of every record, of every report body, and of every reply body but
those of IDENTIFY and STATUS, which have statements of their own; the record kind of each reply, which is the kind of the
request it answers, and its outcome; the codes that go out, and what each value of a code that comes in names: the value n the
n-th of its list, counting from 0, and every other value nothing. -/
def Obligations.SelectAssertionFixesTheExchange : Prop :=
  (∀ s : State, s.resetHeld = false →
    ∃ t, exec .selectAssertion s = .next t
      ∧ t = s.setLif { s.lif with exchange := t.lif.exchange }
      ∧ t.shiftedOut 0 = BitVec.ofNat 8 (s.lif.previous.code * 64 + s.lif.queue.length)
      ∧ (s.lif.queue = [] → ∀ n, t.shiftedOut (n + 1) = 0)
      ∧ ∀ r rest, s.lif.queue = r :: rest → ∀ n, t.shiftedOut (n + 1) = r.bytes.getD n 0)
    ∧ (let one := fun n : Nat => [BitVec.ofNat 8 n]
      let two := fun n : Nat => [BitVec.ofNat 8 (n / 256), BitVec.ofNat 8 n]
      let four := fun n : Nat => two (n / 65536) ++ two n
      let flags := fun bits : List Bool => one (bits.foldr (fun b n => (if b then 1 else 0) + 2 * n) 0)
      let presentTwo := fun x : Option Nat => two (x.getD 0)
      let groupSet := fun g : PerGroup Bool => flags [g.valveMaps, g.profileA, g.profileB, g.geometry, g.limits]
      let bitSet := fun b : PerBit Bool => flags [b.limit, b.gap, b.sense, b.holdup, b.unmet]
      let origin := fun o : OriginRecord =>
        two o.tag.toNat
          ++ flags [o.role.isSome, o.position.isSome, o.previewDemand.isSome, o.reactiveDemand.isSome,
            o.finalDemand.isSome, o.conditions.isSome, o.driverState.isSome, o.followed.isSome]
          ++ one ((o.role.map Role.code).getD 0) ++ four (o.position.getD 0).toNat ++ presentTwo o.previewDemand
          ++ presentTwo o.reactiveDemand ++ presentTwo o.finalDemand
          ++ (let u := o.conditions.getD {}
            flags [u.sat, u.rate, u.nopv, u.miss, u.subst, u.slost, u.held, u.ovrd])
          ++ one ((o.driverState.map DriverState.code).getD 0) ++ one ((o.followed.map ProfileName.code).getD 0)
      let variant := fun v : Option Variant =>
        one (if v.isSome then 1 else 0)
          ++ (let code := ((v.map Variant.code).getD 0).toNat
            four (code / 4294967296) ++ four code)
          ++ presentTwo (v.map Variant.cap)
      let replies := fun (r : Reply) (kind : Byte) (body : List Byte) =>
        (Record.reply r).kindByte = kind ∧ (Record.reply r).body = body
      (∀ r : Record, r.bytes =
          (let framed := r.kindByte :: one r.body.length ++ r.body
          framed ++ two (crc16 framed).toNat))
        ∧ (∀ p : PassageReport, (Record.report (.passage p)).kindByte = 0x81 ∧ (Record.report (.passage p)).body =
          two p.tag.toNat ++ one (trackCode p.track) ++ one p.kind.code ++ four p.start.toNat ++ two p.length
            ++ flags [p.incomplete, p.missedFront, p.missedRear, p.overrideUsed]
            ++ flags [p.frontLead.isSome, p.rearLead.isSome, p.frontEntry.isSome, p.rearEntry.isSome, p.frontPeak.isSome,
              p.frontTravel.isSome, p.rearPeak.isSome, p.rearTravel.isSome]
            ++ presentTwo p.frontLead ++ presentTwo p.rearLead ++ presentTwo p.frontEntry ++ presentTwo p.rearEntry
            ++ presentTwo p.frontPeak ++ presentTwo p.frontTravel ++ presentTwo p.rearPeak ++ presentTwo p.rearTravel)
        ∧ (∀ r : ConditionReport, (Record.report (.condition r)).kindByte = 0x82
          ∧ (Record.report (.condition r)).body = one (cornerCode r.corner) ++ one r.bit.code ++ origin r.origin)
        ∧ (∀ f : FaultReport, (Record.report (.fault f)).kindByte = 0x83 ∧ (Record.report (.fault f)).body =
          one (cornerCode f.corner) ++ one f.record.kind.code ++ one f.record.state.code ++ one f.record.mode.code
            ++ two f.record.measured ++ two f.record.setpoint ++ four f.record.position.toNat ++ one f.retryCount)
        ∧ (∀ l : LockReport, (Record.report (.lock l)).kindByte = 0x84 ∧ (Record.report (.lock l)).body =
          one (trackCode l.track) ++ one l.state.code ++ one l.cause.code ++ four l.position.toNat)
        ∧ (∀ m : ModeReport, (Record.report (.mode m)).kindByte = 0x85 ∧ (Record.report (.mode m)).body =
          one m.cause.code ++ one m.mode.code ++ one m.previous.code ++ one m.preview.code ++ one m.faultedCount
            ++ one m.superseded)
        ∧ (∀ p : ProfileReport, (Record.report (.profile p)).kindByte = 0x86 ∧ (Record.report (.profile p)).body =
          one p.active.code ++ one p.previous.code ++ four (p.positions.fl.getD 0).toNat
            ++ four (p.positions.fr.getD 0).toNat ++ four (p.positions.rl.getD 0).toNat
            ++ four (p.positions.rr.getD 0).toNat)
        ∧ (∀ r : Reply, replies r r.kind.code (one r.outcome.code ++ r.fields))
        ∧ (∀ v, (Reply.identify v).kind.code = 0x01 ∧ (Reply.identify v).outcome = .ok)
        ∧ (∀ code group set, replies (.setGroup code group set) 0x02 (one code.code ++ [group] ++ groupSet set))
        ∧ (∀ code group isLocked inUse x, replies (.readGroup code group isLocked inUse (some x)) 0x03
            (one code.code ++ [group] ++ flags [true, isLocked, inUse] ++ x.bytes))
        ∧ (∀ code group isLocked inUse, replies (.readGroup code group isLocked inUse none) 0x03
            (one code.code ++ [group] ++ flags [false, isLocked, inUse]))
        ∧ (∀ code locks, replies (.setLocks code locks) 0x04 (one code.code ++ groupSet locks))
        ∧ (∀ code v set, replies (.writeVariant code v set) 0x05 (one code.code ++ variant v ++ groupSet set))
        ∧ (∀ code mode unset, replies (.start code mode unset) 0x06 (one code.code ++ one mode.code ++ groupSet unset))
        ∧ (∀ code mode, replies (.standby code mode) 0x07 (one code.code ++ one mode.code))
        ∧ (∀ mode, replies (.restart mode) 0x08 (one 0 ++ one mode.code))
        ∧ (∀ code, replies (.motion code) 0x09 (one code.code))
        ∧ (∀ code tag evicted superseded, replies (.preview code tag evicted superseded) 0x0A
            (one code.code ++ two tag.toNat ++ two evicted.toNat ++ one superseded.length
              ++ superseded.flatMap fun x => two x.toNat))
        ∧ (∀ code tag, replies (.withdraw code tag) 0x0B (one code.code ++ two tag.toNat))
        ∧ (∀ code target active p, replies (.selectProfile code target active (some p)) 0x0C
            (one code.code ++ [target] ++ one active.code ++ one p.code))
        ∧ (∀ code target active, replies (.selectProfile code target active none) 0x0C
            (one code.code ++ [target] ++ one active.code ++ one 2))
        ∧ (∀ code corner count balance pullIn, replies (.trimAhead code corner count balance pullIn) 0x0D
            (one code.code ++ [corner, count, BitVec.ofInt 8 balance] ++ one pullIn))
        ∧ (∀ code corner driver retries, replies (.recheck code corner driver retries) 0x0E
            (one code.code ++ [corner] ++ one ((driver.map DriverState.code).getD 0) ++ one retries))
        ∧ (∀ code corner enabled, replies (.setReporting code corner enabled) 0x0F
            (one code.code ++ [corner] ++ bitSet enabled))
        ∧ (∀ code corner accrued, replies (.clearConditions code corner accrued) 0x10
            (one code.code ++ [corner] ++ bitSet accrued))
        ∧ (∀ code corner accrued o, replies (.readOrigin code corner accrued o) 0x11
            (one code.code ++ [corner] ++ bitSet accrued ++ origin o))
        ∧ ∀ r, (Reply.status r).kind.code = 0x12 ∧ (Reply.status r).outcome = .ok)
    ∧ [FrameOutcome.accepted, .crcError, .malformed, .noRoom].map FrameOutcome.code = [0, 1, 2, 3]
    ∧ [ReplyCode.ok, .mode, .order, .range, .locked, .late, .suspended, .state, .full, .dupTag, .unknownTag, .busy, .written,
        .noVariant, .unlockedTrack, .retries].map ReplyCode.code = [0, 1, 2, 3, 4, 5, 6, 7, 8, 9, 10, 11, 12, 13, 14, 15]
    ∧ [Corner.fl, .fr, .rl, .rr].map cornerCode = [0, 1, 2, 3] ∧ [Track.left, .right].map trackCode = [0, 1]
    ∧ [Role.front, .rear].map Role.code = [0, 1] ∧ [ProfileName.a, .b].map ProfileName.code = [0, 1]
    ∧ [PartMode.config, .starting, .run, .safe, .standby].map PartMode.code = [0, 1, 2, 3, 4]
    ∧ [PreviewState.suspended, .active].map PreviewState.code = [0, 1]
    ∧ [LockState.unlocked, .acquiring, .locked].map LockState.code = [0, 1, 2]
    ∧ [DriverState.off, .checking, .armed, .drive, .trim, .hold, .released, .faulted].map DriverState.code =
        [0, 1, 2, 3, 4, 5, 6, 7]
    ∧ [SensorState.valid, .lost].map SensorState.code = [0, 1]
    ∧ [Kind.smooth, .bump, .pothole, .stepUp, .stepDown, .rough, .unknown].map Kind.code = [0, 1, 2, 3, 4, 5, 6]
    ∧ [AccruedBit.limit, .gap, .sense, .holdup, .unmet].map AccruedBit.code = [0, 1, 2, 3, 4]
    ∧ [FaultKind.shortCoil, .openCoil, .overcurrent, .tracking].map FaultKind.code = [0, 1, 2, 3]
    ∧ [LockCause.acquired, .reverse, .directionUnknown, .slip, .standby].map LockCause.code = [0, 1, 2, 3, 4]
    ∧ [ModeCause.start, .checksEnded, .secondFault, .standbyRequest, .previewSuspended, .previewResumed].map ModeCause.code =
        [0, 1, 2, 3, 4, 5]
    ∧ [RequestKind.identify, .setGroup, .readGroup, .setLocks, .writeVariant, .start, .standby, .restart, .motion, .preview,
        .withdraw, .selectProfile, .trimAhead, .recheck, .setReporting, .clearConditions, .readOrigin, .status,
        .fetch].map RequestKind.code = (List.range 19).map (fun n => BitVec.ofNat 8 (n + 1))
    ∧ (∀ b : Byte, cornerOf b = [Corner.fl, .fr, .rl, .rr][b.toNat]? ∧ trackOf b = [Track.left, .right][b.toNat]?
      ∧ kindOf b = [Kind.smooth, .bump, .pothole, .stepUp, .stepDown, .rough, .unknown][b.toNat]?
      ∧ directionOf b = [Direction.forward, .reverse, .unknown][b.toNat]?
      ∧ profileOf b = [ProfileName.a, .b][b.toNat]?
      ∧ groupOf b = [GroupId.valveMaps, .profileA, .profileB, .geometry, .limits][b.toNat]?
      ∧ combineOf b = [CombineMode.replace, .max, .min][b.toNat]?
      ∧ substitutionOf b = [Substitution.none, .axlePartner][b.toNat]?)

/-- R190, findings 1 to 5: which collected bits are MALFORMED, which of the others CRC_ERROR; the permitted body lengths
(R198); the CRC, bit by bit with the most significant bit of each byte first: the remainder of x^16 + x^12 + x^5 + 1, from the
initial value FFFF, with no final inversion (R199). -/
def Obligations.FrameFindingsOneToFive : Prop :=
  (∀ f : RawFrame,
    let byte := fun n : Nat => f.bytes.getD n 0
    let length := (byte 2).toNat
    let body := (f.bytes.drop 3).take length
    (judgeFrame f ≠ .malformed ↔
        f.strayBits = 0 ∧ 5 ≤ f.bytes.length ∧ byte 0 = 0xB6 ∧
          ∃ k : RequestKind, byte 1 = k.code ∧ length ≤ 248 ∧ k.permits length = true
            ∧ f.bytes.length = length + 5 ∧ (k = .preview → (byte 21).toNat = length - 19))
      ∧ (judgeFrame f ≠ .malformed →
          (judgeFrame f = .crcError ↔ byte (length + 3) ++ byte (length + 4) ≠ crc16 (byte 1 :: byte 2 :: body))))
    ∧ (∀ (k : RequestKind) (n : Nat), k.permits n = true ↔
      match k with
      | .identify | .start | .standby | .restart | .status => n = 0
      | .readGroup | .setLocks | .motion | .selectProfile | .recheck | .readOrigin => n = 1
      | .withdraw | .trimAhead | .setReporting | .clearConditions => n = 2
      | .writeVariant => n = 10
      | .setGroup => n = 12 ∨ n = 40 ∨ n = 88 ∨ n = 89 ∨ n = 133 ∨ n = 177
      | .preview => 19 ≤ n ∧ n ≤ 27
      | .fetch => n ≤ 248)
    ∧ ∀ bytes : List Byte,
      let bits := bytes.flatMap fun b => [7, 6, 5, 4, 3, 2, 1, 0].map fun i => b.getLsbD i
      crc16 bytes = bits.foldl (fun (crc : Half) (bit : Bool) =>
        if crc.msb != bit then (crc <<< 1) ^^^ 0x1021 else crc <<< 1) 0xFFFF

/-- R190: a frame found MALFORMED or CRC_ERROR changes the previous-frame outcome and ends the exchange, and nothing else;
any well-formed frame is taken as its request is (the model's reading, assumption log 7). -/
def Obligations.FramesAreTakenAsTheyAreFound : Prop :=
  ∀ (s : State) (f : RawFrame), s.resetHeld = false →
    (judgeFrame f = .malformed →
        exec (.malformedFrame f) s = .next (s.setLif { s.lif with previous := .malformed, exchange := none }))
      ∧ (judgeFrame f = .crcError →
        exec (.malformedFrame f) s = .next (s.setLif { s.lif with previous := .crcError, exchange := none }))
      ∧ ∀ r, judgeFrame f = .wellFormed r →
        exec (.malformedFrame f) s = exec r s ∧ exec (.noRoom f) s = exec r s

/-- R199: the frame that carries a well-formed request is judged well-formed, and reads back as that request with every
operand; a frame judged well-formed is the frame of the request that it reads as; and the layout of the frame of each
request. -/
def Obligations.FrameOfARequestIsReadBack : Prop :=
  (∀ (i : Instr) (k : RequestKind), kindOfRequest i = some k → i.wellFormed = true →
    ∃ f, frameOf i = some f ∧ judgeFrame f = .wellFormed i)
    ∧ (∀ (f : RawFrame) (i : Instr), judgeFrame f = .wellFormed i → frameOf i = some f)
    ∧ (let two := fun n : Nat => [BitVec.ofNat 8 (n / 256), BitVec.ofNat 8 n]
      let four := fun n : Nat => two (n / 65536) ++ two n
      let sends := fun (i : Instr) (kind : Byte) (body : List Byte) =>
        let framed := [kind, BitVec.ofNat 8 body.length] ++ body
        frameOf i = some { bytes := [0xB6] ++ framed ++ two (crc16 framed).toNat }
      sends .identify 0x01 [] ∧ (∀ group contents, sends (.setGroup group contents) 0x02 (group :: contents))
        ∧ (∀ group, sends (.readGroup group) 0x03 [group]) ∧ (∀ locks, sends (.setLocks locks) 0x04 [locks])
        ∧ (∀ code cap, sends (.writeVariant code cap) 0x05
          (four (code.toNat / 4294967296) ++ four code.toNat ++ two cap.toNat))
        ∧ sends .start 0x06 [] ∧ sends .standby 0x07 [] ∧ sends .restart 0x08 []
        ∧ (∀ direction, sends (.motion direction) 0x09 [direction])
        ∧ (∀ r, sends (.preview r) 0x0A
          (two r.tag.toNat ++ [r.track, r.kind] ++ four r.start.toNat ++ two r.length.toNat
            ++ [r.amplitude, r.confidence, r.options] ++ two r.overrideFront.toNat ++ two r.overrideRear.toNat
            ++ [r.roughIntensity, BitVec.ofNat 8 r.samples.length] ++ r.samples))
        ∧ (∀ tag, sends (.withdraw tag) 0x0B (two tag.toNat))
        ∧ (∀ target, sends (.selectProfile target) 0x0C [target])
        ∧ (∀ corner count, sends (.trimAhead corner count) 0x0D [corner, count])
        ∧ (∀ corner, sends (.recheck corner) 0x0E [corner])
        ∧ (∀ corner bits, sends (.setReporting corner bits) 0x0F [corner, bits])
        ∧ (∀ corner bits, sends (.clearConditions corner bits) 0x10 [corner, bits])
        ∧ (∀ corner, sends (.readOrigin corner) 0x11 [corner]) ∧ sends .status 0x12 []
        ∧ ∀ body, sends (.fetch body) 0x13 body)

/-- R191 steps 1 to 3, R195, R40: what the arrival of a well-formed frame does at LIF and at the store before its request
is delivered, and that a NO_ROOM frame does this alone. A reply or a report is placed at the tail of the queue, and the
attention line is asserted while the queue holds a record (R192). -/
def Obligations.FrameArrival : Prop :=
  (∀ (s : State) (o : FrameOutcome), (o = .accepted ∨ o = .noRoom) →
    let t := (s.endExchange o).frameArrives
    t.lif = { queue := s.lif.queue, previous := o, exchange := none,
              silence := match s.cfs.limits with
                | some l => .running l.silenceTimeout
                | none => .stopped }
      ∧ (s.mdc.mode = .run → s.pvs.preview = .suspended →
          t.pvs = { s.pvs with preview := .active }
            ∧ t.mdc.marker = some
                { cause := .previewResumed, mode := .run, previous := .run, preview := .active,
                  faultedCount := s.mdc.faultedCount, superseded := s.mdc.nextSuperseded }
            ∧ t.mdc = { s.mdc with marker := t.mdc.marker, supersededCount := s.mdc.nextSuperseded })
      ∧ (¬(s.mdc.mode = .run ∧ s.pvs.preview = .suspended) → t.pvs = s.pvs ∧ t.mdc = s.mdc)
      ∧ t.pending = s.pending ∧ t.resetHeld = s.resetHeld ∧ t.cfs = s.cfs ∧ t.tod = s.tod ∧ t.cc = s.cc ∧ t.vd = s.vd)
    ∧ (∀ s : State, s.delivered = (s.endExchange .accepted).frameArrives)
    ∧ (∀ (s : State) (r : Record), s.place r = s.setLif { s.lif with queue := s.lif.queue ++ [r] })
    ∧ (∀ s : State, s.attention = true ↔ s.lif.queue ≠ [])
    ∧ ∀ (s : State) (f : RawFrame) (r : Instr), s.resetHeld = false → 32 ≤ s.lif.queue.length →
        judgeFrame f = .wellFormed r → kindOfRequest r ≠ some .fetch → kindOfRequest r ≠ some .restart →
        exec (.noRoom f) s = .next (s.endExchange .noRoom).frameArrives

/-- R194: a FETCH of a permitted length removes the head record where the exchange had a copy and the body is as long as
the copy's; it makes no reply. -/
def Obligations.FetchRemovesTheRecordItCarried : Prop :=
  ∀ (s : State) (body : List Byte) (x : Exchange), s.resetHeld = false → body.length ≤ 248 → s.lif.exchange = some x →
    (x.copy = none → exec (.fetch body) s = .next s.delivered)
      ∧ ∀ r, x.copy = some r →
        (r.body.length ≤ body.length →
            exec (.fetch body) s = .next (s.delivered.setLif { s.delivered.lif with queue := s.lif.queue.tail }))
          ∧ (body.length < r.body.length → exec (.fetch body) s = .next s.delivered)

/-- R198, R47, R199: STATUS replies with the state of every block, counts the queue before its own reply, and changes no
block; with at most 64 segments held, as the store keeps it (R22), the eight slot counts total 64; and the layout of the
reply. -/
def Obligations.StatusReportsEveryBlock : Prop :=
  (∀ s : State, s.delivers →
    exec .status s = .next (s.delivered.place (.reply (.status
        { mode := s.mdc.mode, preview := s.delivered.pvs.preview
          tracks := PerTrack.of fun t =>
            { position := (s.tod.get t).position, speed := (s.tod.get t).speed, lock := (s.tod.get t).lock }
          corners := PerCorner.of fun c =>
            { driver := (s.vd.get c).state, setpoint := (s.vd.get c).setpoint
              lastDemand := (s.cc.get c).lastDemand
              accrued := PerBit.of fun b => ((s.cc.get c).bits.get b).isSet
              balance := (s.vd.get c).balance, temperature := (s.vd.get c).temperature
              followed := (s.cc.get c).followed, sensor := (s.cc.get c).sensor }
          slots :=
            { free := 64 - s.pvs.held.length, pending := s.pvs.count .pending, frontLead := s.pvs.count .frontLead
              frontOn := s.pvs.count .frontOn, between := s.pvs.count .between, rearLead := s.pvs.count .rearLead
              rearOn := s.pvs.count .rearOn, spent := s.pvs.count .spent }
          queueCount := s.lif.queue.length })))
      ∧ s.pvs.count .pending + s.pvs.count .frontLead + s.pvs.count .frontOn + s.pvs.count .between
          + s.pvs.count .rearLead + s.pvs.count .rearOn + s.pvs.count .spent = s.pvs.held.length
      ∧ (s.pvs.held.length ≤ 64 →
        (64 - s.pvs.held.length) + s.pvs.count .pending + s.pvs.count .frontLead + s.pvs.count .frontOn
          + s.pvs.count .between + s.pvs.count .rearLead + s.pvs.count .rearOn + s.pvs.count .spent = 64)
      ∧ ∀ st, s.pvs.count st =
        ((s.pvs.lists.left ++ s.pvs.lists.right).filter fun x => x.state == st).length)
    ∧ ∀ r : StatusReply,
      let one := fun n : Nat => [BitVec.ofNat 8 n]
      let two := fun n : Nat => [BitVec.ofNat 8 (n / 256), BitVec.ofNat 8 n]
      let four := fun n : Nat => two (n / 65536) ++ two n
      let flags := fun bits : List Bool => one (bits.foldr (fun b n => (if b then 1 else 0) + 2 * n) 0)
      let track := fun t : TrackStatus => four t.position.toNat ++ four t.speed ++ one t.lock.code
      let corner := fun c : CornerStatus =>
        let degrees := c.temperature.getD 0
        one c.driver.code ++ two c.setpoint ++ two c.lastDemand
          ++ flags [c.accrued.limit, c.accrued.gap, c.accrued.sense, c.accrued.holdup, c.accrued.unmet]
          ++ [BitVec.ofInt 8 c.balance, BitVec.ofInt 8 (degrees / 256), BitVec.ofInt 8 degrees]
          ++ flags [c.temperature.isSome] ++ one c.followed.code ++ one c.sensor.code
      (Record.reply (.status r)).body =
        one 0 ++ one r.mode.code ++ one r.preview.code ++ track r.tracks.left ++ track r.tracks.right ++ corner r.corners.fl
          ++ corner r.corners.fr ++ corner r.corners.rl ++ corner r.corners.rr ++ one r.slots.free ++ one r.slots.pending
          ++ one r.slots.frontLead ++ one r.slots.frontOn ++ one r.slots.between ++ one r.slots.rearLead
          ++ one r.slots.rearOn ++ one r.slots.spent ++ one r.queueCount

/-- R193: admission appends reports, in the order of markers, until the queue holds 28 records or no report waits. What
waits in each marker, with the contents of its report, and what its admission does at the owner: the FAULT, MODE, LOCK or
PROFILE marker is emptied, the superseded count becomes 0 with MODE's (R175), the bit becomes REPORTED (R120), the oldest
SPENT slot, the one with the least spent place (assumption log 13), becomes FREE (R70), whose report carries R68's contents
with the travels and peaks of R69; the rest of its list stands by its starts (R21, assumption log 21). -/
def Obligations.AdmissionTakesWaitingReportsInOrder : Prop :=
  (∀ s : State, s.resetHeld = false →
    ∃ t added, exec .admission s = .next t ∧ t.lif = { s.lif with queue := s.lif.queue ++ added }
      ∧ (∀ r ∈ added, r.isReport = true)
      ∧ (28 ≤ t.lif.queue.length ∨ ∀ m, t.waiting m = none))
    ∧ (∀ s : State, s.resetHeld = false → (28 ≤ s.lif.queue.length ∨ ∀ m, s.waiting m = none) →
        exec .admission s = .next s)
    ∧ (∀ (s : State) (m : Marker) (r : Report) (earlier later : List Marker), s.resetHeld = false →
        s.lif.queue.length < 28 → markerOrder = earlier ++ m :: later → (∀ n ∈ earlier, s.waiting n = none) →
        s.waiting m = some r →
        exec .admission s = exec .admission ((s.emptyMarker m).place (.report r)))
    ∧ markerOrder =
        [.fault .fl, .fault .fr, .fault .rl, .fault .rr, .mode, .lock .left, .lock .right, .profile]
          ++ [Corner.fl, .fr, .rl, .rr].flatMap (fun c => [.condition c .limit, .condition c .gap, .condition c .sense,
            .condition c .holdup, .condition c .unmet])
          ++ [.passage]
    ∧ (∀ (s : State) (c : Corner), s.waiting (.fault c) = (s.vd.get c).faultMarker.map .fault
        ∧ s.emptyMarker (.fault c) = s.setVd c { s.vd.get c with faultMarker := none })
    ∧ (∀ s : State, s.waiting .mode = s.mdc.marker.map .mode
        ∧ s.emptyMarker .mode = s.setMdc { s.mdc with marker := none, supersededCount := 0 })
    ∧ (∀ (s : State) (t : Track), s.waiting (.lock t) = (s.tod.get t).marker.map .lock
        ∧ s.emptyMarker (.lock t) = s.setTod t { s.tod.get t with marker := none })
    ∧ (∀ s : State, s.waiting .profile = s.cfs.profileMarker.map .profile
        ∧ s.emptyMarker .profile = s.setCfs { s.cfs with profileMarker := none })
    ∧ (∀ (s : State) (c : Corner) (b : AccruedBit),
        (∀ origin, (s.cc.get c).bits.get b = .waiting origin →
            s.waiting (.condition c b) = some (.condition { corner := c, bit := b, origin }))
          ∧ ((∀ origin, (s.cc.get c).bits.get b ≠ .waiting origin) → s.waiting (.condition c b) = none)
          ∧ ∃ bits, s.emptyMarker (.condition c b) = s.setCc c { s.cc.get c with bits }
            ∧ bits.get b = .reported ∧ ∀ d, d ≠ b → bits.get d = (s.cc.get c).bits.get d)
    ∧ (∀ s : State, (∀ x ∈ s.pvs.held, x.spentPlace = none) → s.waiting .passage = none)
    ∧ ∀ (s : State) (x : Slot) (n : Nat), s.pvs.named → x ∈ s.pvs.held → x.spentPlace = some n →
      (∀ y ∈ s.pvs.held, y ≠ x → ∀ m, y.spentPlace = some m → n < m) →
      let travel := fun r : RoleRecord => match r.heightMin, r.heightMax with
        | some low, some high => some (min 65535 ((high - low).toNat / 1000))
        | _, _ => none
      s.waiting .passage = some (.passage
          { tag := x.segment.tag, track := x.segment.track, kind := x.segment.kind, start := x.segment.start
            length := x.segment.length, incomplete := x.incomplete, missedFront := x.front.missed
            missedRear := x.rear.missed, overrideUsed := x.overrideUsed, frontLead := x.front.frozenLead
            rearLead := x.rear.frozenLead, frontEntry := x.front.entryDemand, rearEntry := x.rear.entryDemand
            frontPeak := x.front.peakVelocity.map (min 65535), frontTravel := travel x.front
            rearPeak := x.rear.peakVelocity.map (min 65535), rearTravel := travel x.rear })
        ∧ ∃ p : Store, s.emptyMarker .passage = s.setPvs p ∧ p = { s.pvs with lists := p.lists }
          ∧ ∀ t, arranges ((s.pvs.lists.get t).filter fun y => y != x) (p.lists.get t)

/-- R195, R39: a silence expiry stops the timer; in RUN with preview ACTIVE it suspends preview, makes a MODE report and
frees every PENDING segment of both tracks, the rest of a list standing by its starts (R21, assumption log 21). The superseded
count that a MODE report carries (R175). -/
def Obligations.SilenceExpirySuspendsPreview : Prop :=
  (∀ s : State, s.resetHeld = false → s.lif.silence ≠ .stopped →
    ∃ t, exec .silenceExpiry s = .next t ∧ t.lif = { s.lif with silence := .stopped }
      ∧ (s.mdc.mode = .run → s.pvs.preview = .active →
          t.pvs.preview = .suspended
            ∧ (∀ u, arranges ((s.pvs.lists.get u).filter fun x => x.state != .pending) (t.pvs.lists.get u))
            ∧ t.pvs.nextSerial = s.pvs.nextSerial ∧ t.pvs.nextSpent = s.pvs.nextSpent
            ∧ t.mdc = { s.mdc with
                supersededCount := s.mdc.nextSuperseded
                marker := some
                  { cause := .previewSuspended, mode := .run, previous := .run, preview := .suspended
                    faultedCount := s.mdc.faultedCount, superseded := s.mdc.nextSuperseded } })
      ∧ (¬(s.mdc.mode = .run ∧ s.pvs.preview = .active) → t.pvs = s.pvs ∧ t.mdc = s.mdc)
      ∧ t.pending = s.pending ∧ t.resetHeld = s.resetHeld ∧ t.cfs = s.cfs ∧ t.tod = s.tod ∧ t.cc = s.cc ∧ t.vd = s.vd)
    ∧ ∀ m : Mdc, (m.marker = none → m.nextSuperseded = m.supersededCount)
      ∧ (m.marker ≠ none → m.nextSuperseded = min 255 (m.supersededCount + 1))

/-- R192, R194: every step keeps the bounds of the queue (32 records, 28 of them reports), and a copy being shifted out
stays the head record. -/
def Obligations.QueueStaysBoundedAndItsCopyTheHead : Prop :=
  ∀ s t : State, step s = .next t →
    (s.queueBounded → t.queueBounded) ∧ (s.copyIsHead → t.copyIsHead)

/-! ## Configuration Groups (chapter 10) -/

/-- R187, R199: IDENTIFY replies, in every mode, with the part code, the revision and the variant record; the body of the reply,
where the fields of an unwritten record are sent as 0 (assumption log 33). -/
def Obligations.IdentifyReportsPartAndVariant : Prop :=
  (∀ s : State, s.delivers → exec .identify s = .next (s.delivered.place (.reply (.identify s.cfs.variant))))
    ∧ (Record.reply (.identify none)).body
        = [0x00, 0x44, 0x43, 0x2D, 0x34, 0x31, 0x38, 0x02, 0x00, 0, 0, 0, 0, 0, 0, 0, 0, 0, 0]
    ∧ ∀ v : Variant, (Record.reply (.identify (some v))).body
        = [0x00, 0x44, 0x43, 0x2D, 0x34, 0x31, 0x38, 0x02, 0x01] ++ bytesOfCode v.code ++ bytesOfNat v.cap

/-- R181, R182: the findings of SET_GROUP in order; an accepted one replaces the whole contents of the group, and group 3
makes group 0 UNSET; which groups a reply shows as SET (R177). That contents of a length that does not match the group number
(R198) are found at finding 7, after MODE, LOCKED and ORDER, is the model's choice (assumption log 37). -/
def Obligations.SetGroupJudgesAndReplaces : Prop :=
  (∀ (s : State) (n : Byte) (b : List Byte), s.delivers → RequestKind.permits .setGroup (b.length + 1) = true →
    let refuse := fun code => s.delivered.place (.reply (.setGroup code n s.groupsSet))
    (4 < n.toNat → exec (.setGroup n b) s = .next (refuse .range))
      ∧ ∀ g, groupOf n = some g →
        exec (.setGroup n b) s = .next
          (if s.mdc.mode = .safe then refuse .mode
          else if (g = .valveMaps ∨ g = .geometry ∨ g = .limits) ∧ (s.mdc.mode = .starting ∨ s.mdc.mode = .run) then
            refuse .mode
          else if s.groupProtected g = true then refuse .locked
          else if g = .geometry ∧ s.cfs.valveMaps.isSome = true ∧ s.cfs.locks.valveMaps = true then refuse .locked
          else if g = .valveMaps ∧ s.cfs.geometry = none then refuse .order
          else
            match s.readContents g b with
            | none => refuse .range
            | some x =>
              (s.delivered.setCfs (s.cfs.store g x)).place
                (.reply (.setGroup .ok n (s.setCfs (s.cfs.store g x)).groupsSet))))
    ∧ (∀ (s : State) (g : GroupId) (b : List Byte) (x : GroupContents), s.readContents g b = some x →
      (s.cfs.store g x).contents g = some x
        ∧ (∀ h, h ≠ g → (s.cfs.store g x).contents h =
            if g = .geometry ∧ h = .valveMaps then none else s.cfs.contents h)
        ∧ (s.cfs.store g x).locks = s.cfs.locks ∧ (s.cfs.store g x).variant = s.cfs.variant
        ∧ (s.cfs.store g x).active = s.cfs.active ∧ (s.cfs.store g x).pendingProfile = s.cfs.pendingProfile
        ∧ (s.cfs.store g x).profileMarker = s.cfs.profileMarker)
    ∧ ∀ (s : State) (g : GroupId), s.groupsSet.get g = (s.cfs.contents g).isSome

/-- R178 to R180, R72, R73: the check of each item of a map, of group 3, of a profile and of group 4. -/
def Obligations.GroupItemsAreChecked : Prop :=
  (∀ (m : ValveMap) (cap : Nat), m.passes cap = true ↔
      m.p1.demand = 0 ∧ m.p9.demand = 1000
        ∧ m.p1.demand < m.p2.demand ∧ m.p2.demand < m.p3.demand ∧ m.p3.demand < m.p4.demand ∧ m.p4.demand < m.p5.demand
        ∧ m.p5.demand < m.p6.demand ∧ m.p6.demand < m.p7.demand ∧ m.p7.demand < m.p8.demand ∧ m.p8.demand < m.p9.demand
        ∧ m.p1.current ≤ cap
        ∧ m.p2.current ≤ m.p1.current ∧ m.p3.current ≤ m.p2.current ∧ m.p4.current ≤ m.p3.current
        ∧ m.p5.current ≤ m.p4.current ∧ m.p6.current ≤ m.p5.current ∧ m.p7.current ≤ m.p6.current
        ∧ m.p8.current ≤ m.p7.current ∧ m.p9.current ≤ m.p8.current ∧ m.holdCurrent ≤ cap
        ∧ 100 ≤ m.coldResistance ∧ m.coldResistance ≤ 800 ∧ 1 ≤ m.shortLimit ∧ m.shortLimit ≤ m.coldResistance - 1
        ∧ m.coldResistance + 1 ≤ m.openLimit ∧ m.openLimit ≤ 9998)
    ∧ (∀ s : State, s.mapCap = match s.cfs.variant with
        | some v => v.cap
        | none => 1600)
    ∧ (∀ g : Geometry, g.passes = true ↔
        2400 ≤ g.wheelbase ∧ g.wheelbase ≤ 3600
          ∧ (∀ t, 4000 ≤ (g.pulses.get t).front ∧ (g.pulses.get t).front ≤ 64000
            ∧ 4000 ≤ (g.pulses.get t).rear ∧ (g.pulses.get t).rear ≤ 64000)
          ∧ 8 ≤ g.lockCount ∧ g.lockCount ≤ 64 ∧ 1000 ≤ g.slipWindow ∧ g.slipWindow ≤ 20000
          ∧ 2 ≤ g.slipThreshold ∧ g.slipThreshold ≤ 20
          ∧ ∀ c, (g.corners.get c).low < (g.corners.get c).high ∧ 1 ≤ (g.corners.get c).scale
            ∧ (g.corners.get c).scale ≤ 100)
    ∧ (∀ p : Profile, p.passes = true ↔
        p.floor ≤ 1000 ∧ p.floor ≤ p.ceiling ∧ p.ceiling ≤ 1000 ∧ p.gain ≤ 4000 ∧ 1 ≤ p.rateLimit ∧ p.rateLimit ≤ 1000
          ∧ 5 ≤ p.responseTime ∧ p.responseTime ≤ 60 ∧ p.threshold ≤ 15
          ∧ ∀ k, (p.rows.get k).frontBase ≤ 1000 ∧ (p.rows.get k).rearBase ≤ 1000 ∧ (p.rows.get k).slope ≤ 20
            ∧ (p.rows.get k).leadExtension ≤ 500 ∧ (p.rows.get k).trail ≤ 500 ∧ (p.rows.get k).roughStep ≤ 50)
    ∧ ∀ (l : Limits) (v : Option Variant), l.passes v = true ↔
        80 ≤ l.warm ∧ l.warm ≤ 160 ∧ 100 ≤ l.hot ∧ l.hot ≤ 180 ∧ l.warm + 10 ≤ l.hot
          ∧ 1000 ≤ l.overcurrent ∧ l.overcurrent ≤ 2200 ∧ (∀ w, v = some w → w.cap + 100 ≤ l.overcurrent)
          ∧ 50 ≤ l.silenceTimeout ∧ l.silenceTimeout ≤ 1000 ∧ 100 ≤ l.trimInterval ∧ l.trimInterval ≤ 2000
          ∧ 20 ≤ l.trackingBand ∧ l.trackingBand ≤ 400 ∧ 5 ≤ l.trackingWindow ∧ l.trackingWindow ≤ 100

/-- R178 to R182, R199: the contents that SET_GROUP finds in range are exactly the bytes of contents that pass every check,
with the number of maps that group 3 calls for; they read back byte for byte as they were carried; and the layout of those
bytes. -/
def Obligations.ContentsReadBackAsCarried : Prop :=
  (∀ (s : State) (g : GroupId) (b : List Byte) (x : GroupContents), s.readContents g b = some x → x.bytes = b)
    ∧ (∀ (s : State) (g : GroupId) (b : List Byte) (x : GroupContents), s.mapCap ≤ 1600 →
      (s.readContents g b = some x ↔ b = x.bytes ∧
        match g, x with
        | .valveMaps, .valveMaps v => ∃ q, s.cfs.geometry = some q
            ∧ v.front.maps.length = (if q.separateFront = true then 2 else 1)
            ∧ v.rear.maps.length = (if q.separateRear = true then 2 else 1) ∧ ∀ m ∈ v.maps, m.passes s.mapCap = true
        | .profileA, .profile p => p.passes = true
        | .profileB, .profile p => p.passes = true
        | .geometry, .geometry q => q.passes = true
            ∧ ∀ c, -32768 ≤ (q.corners.get c).low ∧ (q.corners.get c).high ≤ 32767
        | .limits, .limits l => l.passes s.cfs.variant = true
        | _, _ => False))
    ∧ (∀ (m m' : ValveMap), (AxleMaps.shared m).maps = [m] ∧ (AxleMaps.separate m m').maps = [m, m'])
    ∧ (∀ v : ValveMaps, v.maps = v.front.maps ++ v.rear.maps)
    ∧ (let one := fun n : Nat => [BitVec.ofNat 8 n]
      let two := fun n : Nat => [BitVec.ofNat 8 (n / 256), BitVec.ofNat 8 n]
      let signed := fun n : Int => [BitVec.ofInt 8 (n / 256), BitVec.ofInt 8 n]
      let point := fun p : MapPoint => two p.demand ++ two p.current
      let map := fun m : ValveMap =>
        point m.p1 ++ point m.p2 ++ point m.p3 ++ point m.p4 ++ point m.p5 ++ point m.p6 ++ point m.p7 ++ point m.p8
          ++ point m.p9 ++ two m.holdCurrent ++ two m.coldResistance ++ two m.shortLimit ++ two m.openLimit
      let row := fun w : ResponseRow =>
        two w.frontBase ++ two w.rearBase ++ one w.slope
          ++ (match w.combine with
            | .replace => one 0
            | .max => one 1
            | .min => one 2)
          ++ two w.leadExtension ++ two w.trail ++ one w.roughStep
      let entry := fun g : CornerGeometry =>
        signed g.low ++ signed g.high ++ one g.scale
          ++ (match g.substitution with
            | .none => one 0
            | .axlePartner => one 1)
      (∀ v : ValveMaps, (GroupContents.valveMaps v).bytes = v.maps.flatMap map)
        ∧ (∀ p : Profile, (GroupContents.profile p).bytes =
          two p.floor ++ two p.ceiling ++ two p.gain ++ two p.rateLimit ++ one p.responseTime ++ one p.threshold
            ++ row p.rows.smooth ++ row p.rows.bump ++ row p.rows.pothole ++ row p.rows.stepUp ++ row p.rows.stepDown
            ++ row p.rows.rough ++ row p.rows.unknown)
        ∧ (∀ g : Geometry, (GroupContents.geometry g).bytes =
          two g.wheelbase ++ two g.pulses.left.front ++ two g.pulses.left.rear ++ two g.pulses.right.front
            ++ two g.pulses.right.rear ++ one g.lockCount ++ two g.slipWindow ++ one g.slipThreshold ++ entry g.corners.fl
            ++ entry g.corners.fr ++ entry g.corners.rl ++ entry g.corners.rr
            ++ one ((if g.separateFront then 1 else 0) + if g.separateRear then 2 else 0))
        ∧ ∀ l : Limits, (GroupContents.limits l).bytes =
          one l.warm ++ one l.hot ++ two l.overcurrent ++ two l.silenceTimeout ++ two l.trimInterval ++ two l.trackingBand
            ++ one l.trackingWindow)

/-- R183: READ_GROUP reports a group's state, lock, use and contents, and changes no state. What the contents of each group
are (R177). -/
def Obligations.ReadGroupReportsTheGroup : Prop :=
  (∀ (s : State) (n : Byte), s.delivers →
    (4 < n.toNat → ∃ locked used,
        exec (.readGroup n) s = .next (s.delivered.place (.reply (.readGroup .range n locked used none))))
      ∧ (n.toNat ≤ 4 → ∃ g, groupOf n = some g
        ∧ exec (.readGroup n) s = .next
            (s.delivered.place (.reply (.readGroup .ok n (s.cfs.locks.get g) (s.groupInUse g) (s.cfs.contents g))))))
    ∧ ∀ f : Cfs, f.contents .valveMaps = f.valveMaps.map .valveMaps ∧ f.contents .profileA = f.profileA.map .profile
      ∧ f.contents .profileB = f.profileB.map .profile ∧ f.contents .geometry = f.geometry.map .geometry
      ∧ f.contents .limits = f.limits.map .limits

/-- R185: the findings of SET_LOCKS in order; an accepted one replaces the whole lock set. -/
def Obligations.SetLocksReplacesTheLockSet : Prop :=
  ∀ (s : State) (b : Byte), s.delivers →
    let new : PerGroup Bool := ⟨b.getLsbD 0, b.getLsbD 1, b.getLsbD 2, b.getLsbD 3, b.getLsbD 4⟩
    (32 ≤ b.toNat → exec (.setLocks b) s = .next (s.delivered.place (.reply (.setLocks .range s.cfs.locks))))
      ∧ (b.toNat < 32 → (∃ g, s.cfs.locks.get g = true ∧ new.get g = false) → s.mdc.mode ≠ .config →
          exec (.setLocks b) s = .next (s.delivered.place (.reply (.setLocks .mode s.cfs.locks))))
      ∧ (b.toNat < 32 → ((∀ g, s.cfs.locks.get g = true → new.get g = true) ∨ s.mdc.mode = .config) →
          exec (.setLocks b) s = .next
            ((s.delivered.setCfs { s.cfs with locks := new }).place (.reply (.setLocks .ok new))))

/-- R186: the findings of WRITE_VARIANT in order; an accepted one writes the record and makes UNSET the groups that the cap
breaks; a written record changes at a full reset alone. -/
def Obligations.WriteVariantWritesOnce : Prop :=
  (∀ (s : State) (code : BitVec 64) (cls : Half), s.delivers →
    let cap := cls.toNat
    let refuse := fun outcome => s.delivered.place (.reply (.writeVariant outcome s.cfs.variant s.groupsSet))
    let mapsOver := ∃ v, s.cfs.valveMaps = some v ∧ ∃ m ∈ v.maps, ¬(cap ≥ m.holdCurrent ∧ ∀ p ∈ m.points, p.current ≤ cap)
    let thresholdUnder := ∃ l, s.cfs.limits = some l ∧ l.overcurrent < cap + 100
    (s.cfs.variant ≠ none → exec (.writeVariant code cls) s = .next (refuse .written))
      ∧ (s.cfs.variant = none → s.mdc.mode ≠ .config → exec (.writeVariant code cls) s = .next (refuse .mode))
      ∧ (s.cfs.variant = none → s.mdc.mode = .config → cap ≠ 1200 → cap ≠ 1400 → cap ≠ 1600 →
          exec (.writeVariant code cls) s = .next (refuse .range))
      ∧ (s.cfs.variant = none → s.mdc.mode = .config → (cap = 1200 ∨ cap = 1400 ∨ cap = 1600) →
          ((mapsOver ∧ s.cfs.locks.valveMaps = true) ∨ (thresholdUnder ∧ s.cfs.locks.limits = true) →
              exec (.writeVariant code cls) s = .next (refuse .locked))
            ∧ (¬((mapsOver ∧ s.cfs.locks.valveMaps = true) ∨ (thresholdUnder ∧ s.cfs.locks.limits = true)) →
              ∃ f : Cfs,
                exec (.writeVariant code cls) s = .next ((s.delivered.setCfs f).place
                    (.reply (.writeVariant .ok (some { code, cap }) (s.setCfs f).groupsSet)))
                  ∧ f = { s.cfs with variant := some { code, cap }, valveMaps := f.valveMaps, limits := f.limits }
                  ∧ (mapsOver → f.valveMaps = none) ∧ (¬mapsOver → f.valveMaps = s.cfs.valveMaps)
                  ∧ (thresholdUnder → f.limits = none) ∧ (¬thresholdUnder → f.limits = s.cfs.limits))))
    ∧ (∀ (c : Instr) (s t : State), exec c s = .next t → (∀ k, c ≠ .fullReset k) → s.cfs.variant ≠ none →
      t.cfs.variant = s.cfs.variant)
    ∧ ∀ (s : State) (k : ResetCause), ∃ t, exec (.fullReset k) s = .next t ∧ t.cfs.variant = none

/-- R184, R87: between two full resets a group that is explicitly locked or in use does not change, and no command but
SET_LOCKS changes the lock set. A profile group is in use in STARTING, RUN and SAFE while a corner follows it or a switch, which
is to it or from it, is pending; no other group ever is; a group is protected while it is locked or in use. -/
def Obligations.ProtectedGroupsDoNotChange : Prop :=
  (∀ (c : Instr) (s t : State), exec c s = .next t → (∀ k, c ≠ .fullReset k) →
    (∀ g, s.cfs.locks.get g = true ∨ s.groupInUse g = true → t.cfs.contents g = s.cfs.contents g)
      ∧ ((∀ b, takenAs c ≠ .setLocks b) → t.cfs.locks = s.cfs.locks))
    ∧ ∀ s : State,
      let used := fun p : ProfileName => (s.mdc.mode = .starting ∨ s.mdc.mode = .run ∨ s.mdc.mode = .safe)
        ∧ ((∃ c, (s.cc.get c).followed = p) ∨ s.cfs.pendingProfile ≠ none)
      (s.groupInUse .profileA = true ↔ used .a) ∧ (s.groupInUse .profileB = true ↔ used .b)
        ∧ s.groupInUse .valveMaps = false ∧ s.groupInUse .geometry = false ∧ s.groupInUse .limits = false
        ∧ ∀ g, s.groupProtected g = true ↔ s.cfs.locks.get g = true ∨ s.groupInUse g = true

/-- R177, R125, R161: every step keeps, together: the drivers' states those that the part mode admits, the contents of
every SET group passing their checks, every group SET while the part runs, and every setpoint the one of its driver state
and at most the current cap. -/
def Obligations.RunningPartStaysConfiguredAndWithinTheCap : Prop :=
  ∀ s t : State, step s = .next t →
    s.modesAgree ∧ s.configured ∧ s.contentsPass ∧ s.setpointsAgree →
    t.modesAgree ∧ t.configured ∧ t.contentsPass ∧ t.setpointsAgree

/-! ## Operating Modes (chapter 09) -/

/-- R170, R131: the findings of START in order; an accepted one enters STARTING, and every driver in OFF enters CHECKING
(a driver not in OFF, which no run meets here, is left: assumption log 31). -/
def Obligations.StartEntersStarting : Prop :=
  ∀ s : State, s.delivers →
    (s.mdc.mode ≠ .config → s.mdc.mode ≠ .standby →
        exec .start s = .next (s.delivered.place (.reply (.start .mode s.mdc.mode (PerGroup.of fun _ => false)))))
      ∧ (s.mdc.mode = .config ∨ s.mdc.mode = .standby →
        (∀ g, s.cfs.contents g = none →
            exec .start s = .next (s.delivered.place (.reply
              (.start .order s.mdc.mode (PerGroup.of fun h => (s.cfs.contents h).isNone)))))
          ∧ ((∀ g, s.cfs.contents g ≠ none) → s.cfs.variant = none →
            exec .start s = .next (s.delivered.place (.reply
              (.start .noVariant s.mdc.mode (PerGroup.of fun _ => false)))))
          ∧ ((∀ g, s.cfs.contents g ≠ none) → s.cfs.variant ≠ none →
            exec .start s = .next
              (State.place
                { s.delivered with
                  mdc :=
                    { mode := .starting, faultedCount := s.mdc.faultedCount, checkEnds := PerCorner.of fun _ => none
                      supersededCount := s.mdc.nextSuperseded
                      marker := some
                        { cause := .start, mode := .starting, previous := s.mdc.mode, preview := s.pvs.preview
                          faultedCount := s.mdc.faultedCount, superseded := s.mdc.nextSuperseded } }
                  vd := PerCorner.of fun c =>
                    if (s.vd.get c).state = .off then
                      { s.vd.get c with
                        state := .checking, setpoint := 250, operation := .running 40, trim := none
                        trimTimer := .stopped, tracking := .stopped, pullIn := 0, quiet := true }
                    else { s.vd.get c with pullIn := 0, quiet := true }
                  cc := PerCorner.of fun c => { s.cc.get c with previousHeight := none } }
                (.reply (.start .ok .starting (PerGroup.of fun _ => false))))))

/-- R172, R17, R42, R86, R149: STANDBY changes nothing in CONFIG and STANDBY; in STARTING, RUN and SAFE it enters STANDBY,
with the orders of that entry. -/
def Obligations.StandbyEntersStandby : Prop :=
  ∀ s : State, s.delivers →
    (s.mdc.mode = .config ∨ s.mdc.mode = .standby →
        exec .standby s = .next (s.delivered.place (.reply (.standby .ok s.mdc.mode))))
      ∧ (s.mdc.mode = .starting ∨ s.mdc.mode = .run ∨ s.mdc.mode = .safe →
        ∃ t : State, exec .standby s = .next (t.place (.reply (.standby .ok .standby)))
          ∧ t.mdc =
              { s.mdc with
                mode := .standby, faultedCount := 0, supersededCount := s.delivered.mdc.nextSuperseded
                marker := some
                  { cause := .standbyRequest, mode := .standby, previous := s.mdc.mode, preview := .suspended
                    faultedCount := 0, superseded := s.delivered.mdc.nextSuperseded } }
          ∧ (∀ u, t.tod.get u =
              { s.tod.get u with
                lock := .unlocked, runCount := 0, frontTravel := 0, rearTravel := 0, speed := 0, previousTime := none
                lastInterval := none, standstill := .stopped
                marker :=
                  if (s.tod.get u).lock = .locked then
                    some { track := u, state := .unlocked, cause := .standby, position := (s.tod.get u).position }
                  else (s.tod.get u).marker })
          ∧ t.pvs = { (s.pvs.flush .left).flush .right with preview := .suspended }
          ∧ (∀ c, t.vd.get c =
              { s.vd.get c with
                state := .off, setpoint := 0, operation := .stopped, trim := none, trimTimer := .stopped, pullIn := 0
                tracking := .stopped, quiet := true })
          ∧ (s.cfs.pendingProfile = none →
              t.cfs = s.cfs ∧ ∀ c, t.cc.get c = { s.cc.get c with previousHeight := none })
          ∧ (∀ p, s.cfs.pendingProfile = some p →
              (∀ c, t.cc.get c =
                if (s.cc.get c).followed = p then { s.cc.get c with previousHeight := none }
                else
                  { s.cc.get c with
                    followed := p, switchReference := .notSet, switchPosition := some (s.cornerPosition c)
                    previousHeight := none })
              ∧ t.cfs =
                { s.cfs with
                  active := p, pendingProfile := none
                  profileMarker := some
                    { active := p, previous := s.cfs.active
                      positions := PerCorner.of fun c => (t.cc.get c).switchPosition } })
          ∧ t.lif = s.delivered.lif ∧ t.pending = s.pending ∧ t.resetHeld = s.resetHeld)

/-- R173, R191 step 5, R196: RESTART is taken in every mode, with any number of records in the queue; it keeps the groups,
the locks, the variant record and the measured currents, and leaves its reply as the one record. -/
def Obligations.RestartReturnsToConfig : Prop :=
  ∀ s : State, s.resetHeld = false →
    exec .restart s = .next
      { pending := s.pending, resetHeld := false
        lif :=
          { queue := [.reply (.restart .config)], previous := .accepted, exchange := none
            silence := match s.cfs.limits with
              | some l => .running l.silenceTimeout
              | none => .stopped }
        cfs := { s.cfs with active := .a, pendingProfile := none, profileMarker := none }
        mdc := State.reset.mdc, tod := State.reset.tod, pvs := State.reset.pvs, cc := State.reset.cc
        vd := PerCorner.of fun c => { State.reset.vd.get c with measured := (s.vd.get c).measured } }

/-- R174, R196: a full reset gives every block its full-reset values; while the reset input is held, no other command
changes anything; at the release the part resumes. A power-up leaves the level of the input as it is (assumption log 10), and a
full reset drops an exchange in progress (the model's choice, assumption log 36). -/
def Obligations.FullResetSetsEveryItem : Prop :=
  (∀ s : State,
    exec (.fullReset .inputAsserted) s = .next { State.reset with pending := s.pending, resetHeld := true }
      ∧ exec (.fullReset .powerUp) s = .next { State.reset with pending := s.pending, resetHeld := s.resetHeld }
      ∧ exec .resetRelease s = .next { s with resetHeld := false })
    ∧ (∀ (c : Instr) (s : State), s.resetHeld = true → (∀ k, c ≠ .fullReset k) → c ≠ .resetRelease →
        exec c s = .next s)
    ∧ State.reset.lif = { queue := [], previous := .accepted, silence := .stopped, exchange := none }
    ∧ State.reset.attention = false
    ∧ (∀ g, State.reset.cfs.contents g = none ∧ State.reset.cfs.locks.get g = false)
    ∧ State.reset.cfs.variant = none ∧ State.reset.cfs.active = .a ∧ State.reset.cfs.pendingProfile = none
    ∧ State.reset.cfs.profileMarker = none
    ∧ State.reset.mdc =
        { mode := .config, faultedCount := 0, checkEnds := ⟨none, none, none, none⟩, marker := none, supersededCount := 0 }
    ∧ (∀ t, State.reset.tod.get t =
        { position := 0, remainder := 0, speed := 0, previousTime := none, lastInterval := none, lock := .unlocked
          runCount := 0, direction := .unknown, frontTravel := 0, rearTravel := 0, standstill := .stopped
          marker := none })
    ∧ State.reset.pvs.held = [] ∧ State.reset.pvs.preview = .suspended
    ∧ (∀ c, State.reset.cc.get c =
        { sensor := .valid, badRun := 0, goodRun := 0, previousHeight := none, ownVelocity := 0, lastDemand := 1000
          followed := .a, switchReference := .notSet, switchPosition := none, missNotice := false, conditions := {}
          bits := ⟨.clear, .clear, .clear, .clear, .clear⟩, enabled := ⟨false, false, false, false, false⟩
          origin := OriginRecord.empty })
    ∧ ∀ c, State.reset.vd.get c =
        { state := .off, setpoint := 0, heldDemand := 1000, measured := 0, resistance := none, temperature := none
          operation := .stopped, trim := none, trimTimer := .stopped, balance := 0, pullIn := 0, tracking := .stopped
          quiet := true, faultRecord := none, retryCount := 0, faultMarker := none }

/-- The invariants that other statements say every step keeps hold of the machine after a full reset. -/
def Obligations.InvariantsHoldAtReset : Prop :=
  State.reset.queueBounded ∧ State.reset.copyIsHead ∧ State.reset.modesAgree ∧ State.reset.configured
    ∧ State.reset.contentsPass ∧ State.reset.setpointsAgree ∧ State.reset.trimsBounded ∧ State.reset.heldIsLast
    ∧ State.reset.selectionAgrees ∧ State.reset.pendingAgrees ∧ State.reset.locksAgree ∧ State.reset.previewAgrees
    ∧ State.reset.passageAgrees ∧ State.reset.pvs.sound ∧ State.reset.pvs.placed ∧ State.reset.pvs.named ∧ State.reset.pvs.ordered
    ∧ State.reset.pvs.arranged

/-! ## Track Odometry and Motion (chapter 01) -/

/-- R7, R8: MOTION with a valid direction gives it to both odometers, each by its lock state: a LOCKED track leaves LOCKED
and is flushed, an ACQUIRING one is UNLOCKED; a repeated direction changes nothing. -/
def Obligations.MotionGivesTheDirectionToBothTracks : Prop :=
  (∀ (s : State) (b : Byte), s.delivers →
    (2 < b.toNat → exec (.motion b) s = .next (s.delivered.place (.reply (.motion .range))))
      ∧ ∀ d, directionOf b = some d →
        exec (.motion b) s = .next
          (((s.delivered.giveDirection d .left).giveDirection d .right).place (.reply (.motion .ok))))
    ∧ ∀ (s : State) (d : Direction) (t : Track),
      let o := s.tod.get t
      (o.direction = d → s.giveDirection d t = s)
        ∧ (o.direction ≠ d →
          (d = .forward ∨ o.lock = .unlocked → s.giveDirection d t = s.setTod t { o with direction := d })
            ∧ (d ≠ .forward → o.lock = .acquiring →
              s.giveDirection d t = s.setTod t { o with direction := d, lock := .unlocked, runCount := 0 })
            ∧ (d ≠ .forward → o.lock = .locked →
              s.giveDirection d t = (s.setTod t
                  { o with
                    direction := d, lock := .unlocked, runCount := 0, frontTravel := 0, rearTravel := 0
                    marker := some
                      { track := t, state := .unlocked, position := o.position
                        cause := if d = .reverse then .reverse else .directionUnknown } }).setPvs (s.pvs.flush t)))

/-- R3, R4, R5, R15: a front pulse is not taken in CONFIG and STANDBY; taken, it is timed in every direction, and in FORWARD
it advances the position, hands the advance to the store and is then evaluated for lock. A pulse time before the last one
gives the interval of 1 µs (the model's reading, assumption log 3). -/
def Obligations.FrontPulseIsTimedAndAdvances : Prop :=
  ∀ (s : State) (t : Track) (time : Nat), s.resetHeld = false →
    let o := s.tod.get t
    let length := (s.geometry.pulses.get t).front
    let interval := o.previousTime.map fun previous => max 1 (time - previous)
    let speed := match interval with
      | none => 0
      | some i => min 100000 (length * 1000 / i)
    let timed : Tod :=
      { o with lastInterval := interval, speed, previousTime := some time, standstill := .running 500 }
    let advanced : Tod :=
      { timed with
        position := o.position + BitVec.ofNat 32 ((o.remainder + length) / 1000)
        remainder := (o.remainder + length) % 1000 }
    ((s.mdc.mode = .config ∨ s.mdc.mode = .standby) → exec (.frontPulseArrival t time) s = .next s)
      ∧ (s.mdc.mode = .starting ∨ s.mdc.mode = .run ∨ s.mdc.mode = .safe →
        (o.direction ≠ .forward → exec (.frontPulseArrival t time) s = .next (s.setTod t timed))
          ∧ (o.direction = .forward →
            exec (.frontPulseArrival t time) s
              = .next (((s.setTod t advanced).handAdvance t).evaluateLock t o.lastInterval)))

/-- R9, R10, R13: the evaluation of a front pulse for lock by the lock state, and for slip at the end of a window.
`reference` is the interval at the pulse before. -/
def Obligations.FrontPulseIsEvaluatedForLockAndSlip : Prop :=
  ∀ (s : State) (t : Track) (reference : Option Nat),
    let o := s.tod.get t
    let g := s.geometry
    let inBandNow := reference = none ∨ o.lastInterval = none
      ∨ ∃ r i, reference = some r ∧ o.lastInterval = some i ∧ r ≤ 2 * i ∧ i ≤ 2 * r
    let travel := o.frontTravel + (g.pulses.get t).front
    let limit := g.slipWindow * 10 * g.slipThreshold
    (o.lock = .unlocked → s.evaluateLock t reference = s.setTod t { o with lock := .acquiring, runCount := 1 })
      ∧ (o.lock = .acquiring →
        (¬inBandNow → s.evaluateLock t reference = s.setTod t { o with runCount := 1 })
          ∧ (inBandNow → o.runCount + 1 < g.lockCount →
            s.evaluateLock t reference = s.setTod t { o with runCount := o.runCount + 1 })
          ∧ (inBandNow → g.lockCount ≤ o.runCount + 1 →
            s.evaluateLock t reference = s.setTod t
              { o with
                runCount := o.runCount + 1, lock := .locked, frontTravel := 0, rearTravel := 0
                marker := some { track := t, state := .locked, cause := .acquired, position := o.position } }))
      ∧ (o.lock = .locked →
        (travel < g.slipWindow * 1000 → s.evaluateLock t reference = s.setTod t { o with frontTravel := travel })
          ∧ (g.slipWindow * 1000 ≤ travel → travel ≤ o.rearTravel + limit → o.rearTravel ≤ travel + limit →
            s.evaluateLock t reference = s.setTod t { o with frontTravel := 0, rearTravel := 0 })
          ∧ (g.slipWindow * 1000 ≤ travel → (o.rearTravel + limit < travel ∨ travel + limit < o.rearTravel) →
            s.evaluateLock t reference = (s.setTod t
              { o with
                lock := .unlocked, runCount := 0, frontTravel := 0, rearTravel := 0
                marker := some { track := t, state := .unlocked, cause := .slip, position := o.position } }).setPvs
                  (s.pvs.flush t)))

/-- R12: a rear pulse adds to the rear window travel of a LOCKED track in FORWARD, and finds slip past the window and the
slip limit; otherwise, and in CONFIG and STANDBY, it changes no state. -/
def Obligations.RearPulseMeasuresTheWindow : Prop :=
  ∀ (s : State) (t : Track), s.resetHeld = false →
    let o := s.tod.get t
    let g := s.geometry
    let travel := o.rearTravel + (g.pulses.get t).rear
    let limit := g.slipWindow * 10 * g.slipThreshold
    let taken := (s.mdc.mode = .starting ∨ s.mdc.mode = .run ∨ s.mdc.mode = .safe)
      ∧ o.direction = .forward ∧ o.lock = .locked
    (¬taken → exec (.rearPulseArrival t) s = .next s)
      ∧ (taken → travel ≤ g.slipWindow * 1000 + limit →
        exec (.rearPulseArrival t) s = .next (s.setTod t { o with rearTravel := travel }))
      ∧ (taken → g.slipWindow * 1000 + limit < travel →
        exec (.rearPulseArrival t) s = .next ((s.setTod t
          { o with
            lock := .unlocked, runCount := 0, frontTravel := 0, rearTravel := 0
            marker := some { track := t, state := .unlocked, cause := .slip, position := o.position } }).setPvs
              (s.pvs.flush t)))

/-- R6: standstill sets the speed to 0, makes the interval and the pulse time absent, and unlocks an ACQUIRING track
alone. -/
def Obligations.StandstillStopsTheTrack : Prop :=
  ∀ (s : State) (t : Track) (limit : Nat), s.resetHeld = false → (s.tod.get t).standstill = .running limit →
    let o := s.tod.get t
    let stopped : Tod := { o with speed := 0, lastInterval := none, previousTime := none, standstill := .stopped }
    (o.lock = .acquiring →
        exec (.standstill t) s = .next (s.setTod t { stopped with lock := .unlocked, runCount := 0 }))
      ∧ (o.lock ≠ .acquiring → exec (.standstill t) s = .next (s.setTod t stopped))

/-- R8, R38, R57: every step keeps, together: a LOCKED track's direction FORWARD, tracks UNLOCKED in CONFIG and STANDBY,
preview ACTIVE in RUN alone, and segments in passage in RUN on LOCKED tracks alone. -/
def Obligations.PassageOnlyInRunOnLockedForwardTracks : Prop :=
  ∀ s t : State, step s = .next t →
    s.locksAgree ∧ s.previewAgrees ∧ s.passageAgrees → t.locksAgree ∧ t.previewAgrees ∧ t.passageAgrees

/-! ## The Preview Store and Segment Passage (chapters 02 and 03) -/

/-- R25 to R28: checks 1 to 4 of PREVIEW in order, what a refusal replies and leaves unchanged, and that a delivered
PREVIEW is never refused SUSPENDED. -/
def Obligations.PreviewPassesFourChecksOrIsRefused : Prop :=
  (∀ (s : State) (r : SegmentRecord), s.delivers → r.samples.length ≤ 8 →
    s.delivered.judgeRecord r ≠ .refused .suspended
      ∧ ∀ code, s.delivered.judgeRecord r = .refused code →
        exec (.preview r) s = .next (s.delivered.place (.reply (.preview code r.tag 0 []))))
    ∧ (∀ (s : State) (r : SegmentRecord),
      (s.mdc.mode ≠ .run → s.judgeRecord r = .refused .mode)
        ∧ (s.mdc.mode = .run → s.pvs.preview ≠ .active → s.judgeRecord r = .refused .suspended)
        ∧ (s.mdc.mode = .run → s.pvs.preview = .active →
          (∀ t, trackOf r.track = some t → (s.tod.get t).lock ≠ .locked → s.judgeRecord r = .refused .unlockedTrack)
            ∧ (trackOf r.track = none → s.judgeRecord r = .refused .range)
            ∧ ∀ t, trackOf r.track = some t → (s.tod.get t).lock = .locked →
              (segmentOf r = none → s.judgeRecord r = .refused .range)
                ∧ ∀ g, segmentOf r = some g →
                  let d := difference g.start (s.tod.get t).position
                  (250000 < d → d < 2147483648 → s.judgeRecord r = .refused .range)
                    ∧ (d ≤ 250000 ∨ 2147483648 ≤ d → s.judgeRecord r = s.judgeSegment g)))
    ∧ ∀ (r : SegmentRecord) (g : Segment), segmentOf r = some g ↔
      r.tag ≠ 0 ∧ trackOf r.track = some g.track ∧ kindOf r.kind = some g.kind
        ∧ 10 ≤ r.length.toNat ∧ r.length.toNat ≤ 2000 ∧ -100 ≤ r.amplitude.toInt ∧ r.amplitude.toInt ≤ 100
        ∧ r.confidence.toNat ≤ 15 ∧ r.options.toNat < 8
        ∧ (r.options.getLsbD 1 = true → r.overrideFront.toNat ≤ 1000 ∧ r.overrideRear.toNat ≤ 1000)
        ∧ (r.options.getLsbD 2 = true → r.roughIntensity.toNat ≤ 15 ∧ g.kind = .rough)
        ∧ r.samples.length ≤ 8 ∧ (∀ h ∈ r.samples, -100 ≤ h.toInt ∧ h.toInt ≤ 100)
        ∧ g =
          { tag := r.tag, track := g.track, kind := g.kind, start := r.start, length := r.length.toNat
            amplitude := r.amplitude.toInt, confidence := r.confidence.toNat, report := r.options.getLsbD 0
            override := if r.options.getLsbD 1 = true then some ⟨r.overrideFront.toNat, r.overrideRear.toNat⟩ else none
            roughIntensity := if r.options.getLsbD 2 = true then some r.roughIntensity.toNat else none
            samples := r.samples.map BitVec.toInt }

/-- R24, R28 to R35, R1, R21: checks 5 to 8 (a start not ahead of the front corner is LATE), the eviction candidate, and what
acceptance does to the store, with the place that the new segment's start gives it in its list, and replies: the superseded
tags in ascending order of start, in every store that is sound (R18, R21, R22). The lists are in ascending order of start
wherever their segments have one by R1; where they have none, the place of the new segment, before the first that its start
comes before, is the model's choice (assumption log 21). -/
def Obligations.PreviewIsPlacedWhereThereIsRoom : Prop :=
  (∀ (s : State) (g : Segment),
    let profile := s.followedProfile (g.track.corner .front)
    let reach := (s.tod.get g.track).position + BitVec.ofNat 32
      ((s.tod.get g.track).speed * profile.responseTime / 1000 + (profile.rowFor g).leadExtension)
    let list := s.pvs.lists.get g.track
    let gone := fun x : Slot => x.state = .pending ∧ x.segment.track = g.track ∧ x.segment.overlaps g = true
    let away := fun h : Segment => difference h.start (s.tod.get h.track).position
    let late := ahead g.start (s.tod.get g.track).position = false ∨ ahead g.start reach = false
      ∨ ∃ x ∈ list, x.state ≠ .pending ∧ x.segment.overlaps g = true
    let taken := ∃ x ∈ s.pvs.held, x.segment.tag = g.tag ∧ ¬gone x
    let roomy := s.pvs.held.length < 64 ∨ ∃ x ∈ list, gone x
    (late → s.judgeSegment g = .refused .late)
      ∧ (¬late → taken → s.judgeSegment g = .refused .dupTag)
      ∧ (¬late → ¬taken → roomy → s.judgeSegment g = .accepted g none)
      ∧ (¬late → ¬taken → ¬roomy →
        ((∀ x ∈ s.pvs.held, x.state = .pending → away x.segment ≤ away g) → s.judgeSegment g = .refused .full)
          ∧ ((∃ x ∈ s.pvs.held, x.state = .pending ∧ away g < away x.segment) →
            ∃ x ∈ s.pvs.held, s.judgeSegment g = .accepted g (some x) ∧ x.state = .pending
              ∧ (∀ y ∈ s.pvs.held, y.state = .pending → away y.segment ≤ away x.segment)
              ∧ ∀ y ∈ s.pvs.lists.left, y.state = .pending → away y.segment = away x.segment → x ∈ s.pvs.lists.left)))
    ∧ (∀ (s : State) (r : SegmentRecord) (g : Segment) (e : Option Slot), s.delivers → r.samples.length ≤ 8 →
      s.delivered.judgeRecord r = .accepted g e →
      ∃ gone : List Slot, gone.Perm ((s.pvs.lists.get g.track).filter fun x =>
          x.state == .pending && x.segment.track == g.track && x.segment.overlaps g)
        ∧ (s.pvs.sound → gone.Pairwise fun x y => ahead y.segment.start x.segment.start = true)
        ∧ exec (.preview r) s = .next ((s.delivered.setPvs (s.delivered.pvs.accept g e)).place (.reply (.preview .ok r.tag
          (match e with
            | some x => x.segment.tag
            | none => 0)
          (gone.map fun x => x.segment.tag)))))
    ∧ (∀ a b : Position, difference a b = (a - b).toNat ∧ (ahead a b = true ↔ 0 < (a - b).toNat ∧ (a - b).toNat < 2147483648)
      ∧ (before a b = true ↔ 2147483648 ≤ (a - b).toNat))
    ∧ (∀ a b : Segment, a.overlaps b = true ↔
      before a.start (b.start + BitVec.ofNat 32 b.length) = true ∧ before b.start (a.start + BitVec.ofNat 32 a.length) = true)
    ∧ (∀ (p : Store) (g : Segment) (e : Option Slot),
      let stays := fun y : Slot =>
        !(y.state == .pending && y.segment.track == g.track && y.segment.overlaps g) && e.all fun x => y.serial != x.serial
      let untouched : RoleRecord :=
        { frozenLead := none, entryDemand := none, peakVelocity := none, heightMin := none, heightMax := none, seen := false
          missed := false }
      let fresh : Slot :=
        { serial := p.nextSerial, segment := g, state := .pending, front := untouched, rear := untouched
          incomplete := false, overrideUsed := false, spentPlace := none }
      (∃ earlier later, earlier ++ later = (p.lists.get g.track).filter stays
        ∧ (∀ y ∈ earlier, before g.start y.segment.start = false)
        ∧ (∀ y, later.head? = some y → before g.start y.segment.start = true)
        ∧ arranges (earlier ++ fresh :: later) ((p.accept g e).lists.get g.track))
      ∧ (∀ t, t ≠ g.track → arranges ((p.lists.get t).filter stays) ((p.accept g e).lists.get t)))
    ∧ ∀ (p : Store) (g : Segment) (e : Option Slot) (t : Track) (y : Slot),
      let untouched : RoleRecord :=
        { frozenLead := none, entryDemand := none, peakVelocity := none, heightMin := none, heightMax := none, seen := false
          missed := false }
      (y ∈ (p.accept g e).lists.get t ↔
        (t = g.track ∧ y =
            { serial := p.nextSerial, segment := g, state := .pending, front := untouched, rear := untouched
              incomplete := false, overrideUsed := false, spentPlace := none })
          ∨ (y ∈ p.lists.get t ∧ ¬(y.state = .pending ∧ y.segment.track = g.track ∧ y.segment.overlaps g = true)
            ∧ ∀ x, e = some x → y.serial ≠ x.serial))
        ∧ (p.accept g e).preview = p.preview ∧ (p.accept g e).nextSpent = p.nextSpent

/-- R37: WITHDRAW frees the PENDING segment that its tag names, and refuses every other tag; the release changes no
segment in effect. How the rest of a list stands is R21's ascending order, and the clause that says it also for lists whose
order breaks or returns (`arranges`) is the model's choice (assumption log 21). -/
def Obligations.WithdrawFreesAPendingSegment : Prop :=
  ∀ (s : State) (tag : Half), s.delivers → s.pvs.sound → s.pvs.named →
    let refuse := fun code => s.delivered.place (.reply (.withdraw code tag))
    (tag = 0 → exec (.withdraw tag) s = .next (refuse .range))
      ∧ (tag ≠ 0 → (∀ x ∈ s.pvs.held, x.segment.tag ≠ tag) → exec (.withdraw tag) s = .next (refuse .unknownTag))
      ∧ ∀ x ∈ s.pvs.held, x.segment.tag = tag →
        (x.state ≠ .pending → exec (.withdraw tag) s = .next (refuse .late))
          ∧ (x.state = .pending →
            ∃ p : Store, exec (.withdraw tag) s = .next ((s.delivered.setPvs p).place (.reply (.withdraw .ok tag)))
              ∧ (∀ t, arranges ((s.pvs.lists.get t).filter fun y => y != x) (p.lists.get t))
              ∧ p = { s.delivered.pvs with lists := p.lists }
              ∧ ∀ c, p.inEffect c = s.pvs.inEffect c)

/-- R23: a PREVIEW or a WITHDRAW, whatever its outcome, leaves every committed segment in the store as it was. -/
def Obligations.CommittedSegmentsAreNeverDisturbed : Prop :=
  ∀ (c : Instr) (s t : State) (x : Slot), exec c s = .next t → s.pvs.named → x ∈ s.pvs.held → x.state ≠ .pending →
    ((∃ r, takenAs c = .preview r) ∨ ∃ tag, takenAs c = .withdraw tag) → x ∈ t.pvs.held

/-- R21, R22, R43: every step keeps the store sound: at most 64 segments, no two with the same tag, none with tag 0, every length
in its range (R18), each in the list of its track and apart from every other of it, and spent places for exactly the waiting
SPENT ones; and each list in ascending order of start wherever its segments have one by R1, which they have while their starts
lie within half the range of positions (assumption log 21). -/
def Obligations.StoreStaysSound : Prop :=
  ∀ s t : State, step s = .next t → s.pvs.sound ∧ s.pvs.placed ∧ s.pvs.named →
    (t.pvs.sound ∧ t.pvs.placed ∧ t.pvs.named) ∧ (s.pvs.arranged → t.pvs.arranged)
      ∧ (t.pvs.arranged → t.pvs.withinHalf → t.pvs.ordered)

/-- R49, R52 to R55, R62, R63: where an advance brings a segment to rest, and the work of every state it enters and leaves
on the way. -/
def Obligations.AdvanceMovesASegmentThroughItsStates : Prop :=
  ∀ (x : Slot) (v : AdvanceView),
    let y := x.advance v
    let lead := fun w : RoleView =>
      v.speed * w.profile.responseTime / 1000 + (w.profile.rowFor x.segment).leadExtension
    let beforeLead := fun w : RoleView => before w.position (x.segment.start - BitVec.ofNat 32 (lead w)) = true
    let beforeStart := fun w : RoleView => before w.position x.segment.start = true
    let beforeEnd := fun w : RoleView =>
      before w.position (x.segment.start + BitVec.ofNat 32 (x.segment.length + (w.profile.rowFor x.segment).trail)) = true
    let restRearOn := if beforeEnd v.rear then SlotState.rearOn else .spent
    let restRearLead := if beforeStart v.rear then SlotState.rearLead else restRearOn
    let restBetween := if beforeLead v.rear then SlotState.between else restRearLead
    let restFrontOn := if beforeEnd v.front then SlotState.frontOn else restBetween
    let restFrontLead := if beforeStart v.front then SlotState.frontLead else restFrontOn
    let restPending := if beforeLead v.front then SlotState.pending else restFrontLead
    let enters := fun st : SlotState => x.state.rank < st.rank ∧ st.rank ≤ y.state.rank
    let leaves := fun st : SlotState => x.state.rank ≤ st.rank ∧ st.rank < y.state.rank
    y.state =
        (match x.state with
          | .pending => restPending
          | .frontLead => restFrontLead
          | .frontOn => restFrontOn
          | .between => restBetween
          | .rearLead => restRearLead
          | .rearOn => restRearOn
          | .spent => .spent)
      ∧ x.state.rank ≤ y.state.rank
      ∧ y.front =
        { x.front with
          frozenLead := if enters .frontLead then some (lead v.front) else x.front.frozenLead
          entryDemand := if enters .frontOn then some v.front.demand else x.front.entryDemand
          missed := x.front.missed || (decide (leaves .frontOn) && !x.front.seen) }
      ∧ y.rear =
        { x.rear with
          frozenLead := if enters .rearLead then some (lead v.rear) else x.rear.frozenLead
          entryDemand := if enters .rearOn then some v.rear.demand else x.rear.entryDemand
          missed := x.rear.missed || (decide (leaves .rearOn) && !x.rear.seen) }
      ∧ y = { x with state := y.state, front := y.front, rear := y.rear }

/-- R42, R43, R56, R63, R67: an advance and a flush act on the one track's list; a segment that becomes SPENT is freed with
report no, and takes a place at the end of the spent order with report yes, those of one advance or flush in ascending order of
start (in the ascending arrangement of them, wherever the comparison of R1 gives one), as the list itself then stands (R21, assumption
log 21); an advance gives the MISS notices. -/
def Obligations.SpentSegmentsAreReleasedByReportFlag : Prop :=
  (∀ (s : State) (t : Track),
    let view := fun r : Role =>
      ({ position := match r with
           | .front => (s.tod.get t).position
           | .rear => (s.tod.get t).position - BitVec.ofNat 32 s.geometry.wheelbase
         profile := s.followedProfile (t.corner r)
         demand := (s.cc.get (t.corner r)).lastDemand } : RoleView)
    let v : AdvanceView := { speed := (s.tod.get t).speed, front := view .front, rear := view .rear }
    let list := (s.pvs.lists.get t).map fun x => x.advance v
    let missed := fun r : Role =>
      ∃ x ∈ s.pvs.lists.get t, ((x.advance v).role r).missed = true ∧ (x.role r).missed = false
    (s.handAdvance t).pvs =
        { s.pvs with lists := s.pvs.lists.set t (settle s.pvs.nextSpent list).1, nextSpent := (settle s.pvs.nextSpent list).2 }
      ∧ (∀ c, (s.handAdvance t).cc.get c =
        { s.cc.get c with missNotice := (s.cc.get c).missNotice || (decide (c.track = t) && decide (missed c.role)) })
      ∧ (s.handAdvance t).tod = s.tod ∧ (s.handAdvance t).vd = s.vd ∧ (s.handAdvance t).mdc = s.mdc
      ∧ (s.handAdvance t).cfs = s.cfs ∧ (s.handAdvance t).lif = s.lif)
    ∧ (∀ (p : Store) (t : Track),
      let list := ((p.lists.get t).filter fun x => x.state != .pending).map fun x =>
        if x.state = .spent then x else { x with state := .spent, incomplete := true }
      p.flush t = { p with lists := p.lists.set t (settle p.nextSpent list).1, nextSpent := (settle p.nextSpent list).2 })
    ∧ ∀ (n : Nat) (list : List Slot),
      let fresh := fun x : Slot => x.state = .spent ∧ x.spentPlace = none
      let waits := list.filter fun x => decide (fresh x) && x.segment.report
      (settle n list).2 = n + waits.length
        ∧ arranges
          ((list.filter fun x => !decide (fresh x) || x.segment.report).map fun x => { x with spentPlace := none })
          ((settle n list).1.map fun x => { x with spentPlace := none })
        ∧ (∀ x ∈ list, ¬fresh x → x ∈ (settle n list).1)
        ∧ (∀ x ∈ waits, ∃ k, k < waits.length ∧ { x with spentPlace := some (n + k) } ∈ (settle n list).1)
        ∧ ∀ ascending : List Slot, (list.map Slot.serial).Nodup → ascending.Perm waits →
          ascending.Pairwise (fun x y => ahead y.segment.start x.segment.start = true) →
          ∀ (k : Nat) (x : Slot), ascending[k]? = some x → { x with spentPlace := some (n + k) } ∈ (settle n list).1

/-! ## Ride Profiles (chapter 04) -/

/-- R80 to R82, R85: the cases of SELECT_PROFILE in order, the immediate switch, and the switch that begins. An immediate
switch leaves the switch positions (the model's reading, assumption log 28). -/
def Obligations.SelectProfileSwitchesCornerByCorner : Prop :=
  ∀ (s : State) (target : Byte), s.delivers →
    let reply := fun (t : State) code => t.place (.reply (.selectProfile code target t.cfs.active t.cfs.pendingProfile))
    (s.mdc.mode = .safe → exec (.selectProfile target) s = .next (reply s.delivered .mode))
      ∧ (s.mdc.mode ≠ .safe → 1 < target.toNat → exec (.selectProfile target) s = .next (reply s.delivered .range))
      ∧ (s.mdc.mode ≠ .safe → ∀ p, profileOf target = some p →
        (s.cfs.pendingProfile = none → p = s.cfs.active → exec (.selectProfile target) s = .next (reply s.delivered .ok))
          ∧ (s.cfs.pendingProfile = some p → exec (.selectProfile target) s = .next (reply s.delivered .ok))
          ∧ (∀ q, s.cfs.pendingProfile = some q → q ≠ p →
            exec (.selectProfile target) s = .next (reply s.delivered .busy))
          ∧ (s.cfs.pendingProfile = none → p ≠ s.cfs.active → s.mdc.mode = .config ∨ s.mdc.mode = .standby →
            exec (.selectProfile target) s = .next (reply
              { s.delivered with
                cfs := { s.cfs with active := p }
                cc := PerCorner.of fun c => { s.cc.get c with followed := p, switchReference := .notSet } } .ok))
          ∧ (s.cfs.pendingProfile = none → p ≠ s.cfs.active → s.mdc.mode = .starting ∨ s.mdc.mode = .run →
            s.selectionAgrees →
            let drives := fun c => (s.vd.get c).state = .drive ∨ (s.vd.get c).state = .trim
            let cc := PerCorner.of fun c =>
              if drives c then
                { s.cc.get c with
                  switchReference := match s.pvs.inEffect c with
                    | none => .noSegment
                    | some x => .segment x.serial }
              else
                { s.cc.get c with
                  followed := p, switchReference := .notSet, switchPosition := some (s.cornerPosition c) }
            ((∃ c, drives c) →
                exec (.selectProfile target) s = .next (reply
                  { s.delivered with cfs := { s.cfs with pendingProfile := some p }, cc } .ok))
              ∧ ((∀ c, ¬drives c) →
                exec (.selectProfile target) s = .next (reply
                  { s.delivered with
                    cc
                    cfs :=
                      { s.cfs with
                        active := p, pendingProfile := none
                        profileMarker := some
                          { active := p, previous := s.cfs.active
                            positions := PerCorner.of fun c => some (s.cornerPosition c) } } } .ok))))

/-- R75 to R78: the effective kind of a segment and the response row that it selects; the preview demand of a corner from its
segment in effect. -/
def Obligations.PreviewDemandOfASegment : Prop :=
  ∀ (x : Slot) (p : Profile) (r : Role) (position : Position),
    let g := x.segment
    let kind := if g.confidence < p.threshold then Kind.unknown else g.kind
    let row := p.rows.get kind
    let base := match r with
      | .front => row.frontBase
      | .rear => row.rearBase
    let n := g.samples.length
    let amplitude :=
      if n = 0 then g.amplitude
      else if x.state.isOn r = true then
        g.samples.getD (min (difference position g.start * n / g.length) (n - 1)) 0
      else g.samples.getD 0 0
    let rough := if kind = .rough then row.roughStep * g.roughIntensity.getD 0 else 0
    (∀ o, g.override = some o → x.previewDemand p r position =
        match r with
        | .front => o.front
        | .rear => o.rear)
      ∧ (g.override = none →
        x.previewDemand p r position = min 1000 (base + row.slope * amplitude.natAbs + rough))
      ∧ p.rowFor g = row
      ∧ [Kind.smooth, .bump, .pothole, .stepUp, .stepDown, .rough, .unknown].map p.rows.get
        = [p.rows.smooth, p.rows.bump, p.rows.pothole, p.rows.stepUp, p.rows.stepDown, p.rows.rough, p.rows.unknown]
      ∧ (x.state.isOn .front = true ↔ x.state = .frontOn) ∧ (x.state.isOn .rear = true ↔ x.state = .rearOn)

/-- R79, R85: every step keeps the profile selection: no switch pending and every corner on the active profile, or a switch
to another profile pending that some corner has still to make. A machine whose drivers agree with the mode keeps a switch
pending in RUN and SAFE alone (R81, R82, R86). -/
def Obligations.ProfileSelectionStaysConsistent : Prop :=
  ∀ s t : State, step s = .next t →
    (s.selectionAgrees → t.selectionAgrees) ∧ (s.modesAgree → s.pendingAgrees → t.pendingAgrees)

/-! ## Corner Control (chapter 05) -/

/-- R89, R90, R99 to R105, R107, R111 to R113, R116, R119: an update in RUN, by the state of the driver: the demand, from the
profile followed after the boundary test, the corner position (R2), the velocity chosen and the former last demand; its
hand-over and the setpoint, the conditions raised, the accrued bits and what a capture of the origin holds, the quiet
indication, the trim that it starts (R139), and what it leaves unchanged. Which track, role and axle partner a corner has. -/
def Obligations.UpdateInRunHandsTheDemandOver : Prop :=
  (∀ (s : State) (c : Corner) (raw : Int), s.resetHeld = false → s.mdc.mode = .run →
    let driver := (s.vd.get c).state
    let effect := s.pvs.inEffect c
    let computes := driver = .drive ∨ driver = .trim ∨ driver = .hold
    let x := s.cc.get c
    ∃ t, exec (.update c raw) s = .next t ∧
      let y := t.cc.get c
      let d := computeDemand (t.followedProfile c) c.role (s.cornerPosition c) (t.velocityUsed c) effect x.lastDemand
      let lost := y.sensor = .lost
      let captured : OriginRecord :=
        { tag := match effect with
            | none => 0
            | some z => z.segment.tag
          role := some c.role, position := some (s.cornerPosition c)
          previewDemand := if computes then d.preview else none
          reactiveDemand := if computes then some d.reactive else none
          finalDemand := if computes then some d.final else none
          conditions := some y.conditions, driverState := some driver, followed := some y.followed }
      (computes →
        y.lastDemand = d.final ∧ (t.vd.get c).heldDemand = d.final
          ∧ (t.vd.get c).setpoint = (if driver = .drive then (s.map c).current d.final else (s.vd.get c).setpoint)
          ∧ ((t.followedProfile c).floor ≤ (t.followedProfile c).ceiling →
            (t.followedProfile c).floor ≤ d.final ∧ d.final ≤ (t.followedProfile c).ceiling))
      ∧ (¬computes →
        y.lastDemand = x.lastDemand ∧ (t.vd.get c).heldDemand = (s.vd.get c).heldDemand
          ∧ (t.vd.get c).setpoint = (s.vd.get c).setpoint)
      ∧ y.missNotice = false
      ∧ y.conditions =
        { miss := x.missNotice
          subst := decide (lost ∧ t.velocityUsed c ≠ none)
          slost := decide (lost ∧ t.velocityUsed c = none)
          nopv := decide (computes ∧ effect = none ∧ s.pvs.preview = .active ∧ (s.tod.get c.track).lock = .locked)
          ovrd := decide (computes ∧ ∃ z, effect = some z ∧ z.segment.override.isSome = true)
          sat := decide (computes ∧ d.target ≠ d.combined)
          rate := decide (computes ∧ d.final ≠ d.target)
          held := decide (driver = .trim) }
      ∧ y.bits = (x.accrue y.conditions captured).bits ∧ y.origin = (x.accrue y.conditions captured).origin
      ∧ y.enabled = x.enabled
      ∧ t.vd.get c =
        (let v := s.vd.get c
        let told :=
          { v with heldDemand := (t.vd.get c).heldDemand, setpoint := (t.vd.get c).setpoint, quiet := effect.isNone }
        if driver = .drive ∧ effect = none ∧ (0 < v.balance ∨ 0 < v.pullIn) then
          { told with
            state := .trim, operation := .running 3, tracking := .stopped
            trim := some { origin := .drive, kind := if 0 < v.balance then .due else .pullIn } }
        else told)
      ∧ (∀ e, e ≠ c → t.cc.get e = s.cc.get e ∧ t.vd.get e = s.vd.get e)
      ∧ t.tod = s.tod ∧ t.mdc = s.mdc ∧ t.lif = s.lif ∧ t.pending = s.pending
      ∧ t.cfs = { s.cfs with
          active := t.cfs.active, pendingProfile := t.cfs.pendingProfile, profileMarker := t.cfs.profileMarker })
    ∧ (∀ (s : State) (c : Corner) (p : Profile),
      ((s.cc.get c).followed = .a → s.cfs.profileA = some p → s.followedProfile c = p)
        ∧ ((s.cc.get c).followed = .b → s.cfs.profileB = some p → s.followedProfile c = p))
    ∧ (∀ (s : State) (c : Corner),
      (c.role = .front → s.cornerPosition c = (s.tod.get c.track).position)
        ∧ (c.role = .rear → s.cornerPosition c = (s.tod.get c.track).position - BitVec.ofNat 32 s.geometry.wheelbase))
    ∧ [Corner.fl, .fr, .rl, .rr].map (fun c => (c.track, c.role, c.partner)) =
        [(.left, .front, .fr), (.right, .front, .fl), (.left, .rear, .rr), (.right, .rear, .rl)]
    ∧ ∀ c : Corner, c.track.corner c.role = c

/-- R57, R60, R61, R66, R83, R85, R92 to R96, R98: how an update in RUN evaluates its sample and the sensor, chooses a
velocity, makes the boundary test with its switch and the switch's completion, and what the store folds into the segments
that the corner is ON; which segment is in effect, in a list in order. A reference of none is left where a
segment comes into effect (the model's reading, assumption log 17). -/
def Obligations.UpdateInRunEvaluatesSensorAndSegments : Prop :=
  (∀ (s : State) (c : Corner) (raw : Int), s.resetHeld = false → s.mdc.mode = .run →
    let x := s.cc.get c
    let entry := s.geometry.corners.get c
    let good := entry.low ≤ raw ∧ raw ≤ entry.high
    let height := if good then some (raw * entry.scale) else none
    let velocity := if good then x.previousHeight.map fun p => raw * entry.scale - p else none
    let sensor := match x.sensor with
      | .valid => if ¬good ∧ 2 ≤ x.badRun then SensorState.lost else .valid
      | .lost => if good ∧ 9 ≤ x.goodRun then SensorState.valid else .lost
    let supplied := match height, velocity with
      | some h, some v => if sensor = .valid then some (h, v) else none
      | _, _ => none
    let computes := (s.vd.get c).state = .drive ∨ (s.vd.get c).state = .trim ∨ (s.vd.get c).state = .hold
    let switches := ((s.vd.get c).state = .drive ∨ (s.vd.get c).state = .trim)
      ∧ (∃ p, s.cfs.pendingProfile = some p ∧ x.followed ≠ p)
      ∧ ∀ y, s.pvs.inEffect c = some y → x.switchReference ≠ .segment y.serial
    ∃ t, exec (.update c raw) s = .next t
      ∧ (t.cc.get c).sensor = sensor ∧ (t.cc.get c).previousHeight = height
      ∧ (t.cc.get c).badRun = (if good then 0 else min 3 (x.badRun + 1))
      ∧ (t.cc.get c).ownVelocity = velocity.getD x.ownVelocity
      ∧ (t.cc.get c).goodRun =
        (match x.sensor with
          | .valid => if sensor = .lost then 0 else x.goodRun
          | .lost => if good ∧ sensor = .lost then x.goodRun + 1 else 0)
      ∧ (switches → s.hasSwitched t c) ∧ (¬switches → s.keepsProfile t c)
      ∧ t.pvs = { s.pvs with
          lists := s.pvs.lists.set c.track ((s.pvs.lists.get c.track).map fun y =>
            let seen := y.present c.role supplied
            { seen with
              overrideUsed := y.overrideUsed || decide (computes
                ∧ ∃ z, s.pvs.inEffect c = some z ∧ z.segment.override.isSome = true ∧ z.serial = y.serial) }) })
    ∧ (∀ (p : Store) (c : Corner), p.ordered → p.inEffect c =
      ((p.lists.get c.track).filter fun x => match c.role with
        | .front => x.state == .frontLead || x.state == .frontOn
        | .rear => x.state == .rearLead || x.state == .rearOn).getLast?)
    ∧ (∀ (s : State) (c : Corner), s.velocityUsed c =
      if (s.cc.get c).sensor = .valid then some (s.cc.get c).ownVelocity
      else if (s.geometry.corners.get c).substitution = .axlePartner ∧ (s.cc.get c.partner).sensor = .valid then
        some (s.cc.get c.partner).ownVelocity
      else none)
    ∧ ∀ (y : Slot) (r : Role),
      (y.state.isOn r = false → ∀ m, y.present r m = y)
        ∧ (y.state.isOn r = true →
          y.present r none = y.setRole r { y.role r with seen := true }
            ∧ ∀ h v, y.present r (some (h, v)) = y.setRole r
              { y.role r with
                seen := true
                peakVelocity := some (max v.natAbs ((y.role r).peakVelocity.getD 0))
                heightMin := some (min h ((y.role r).heightMin.getD h))
                heightMax := some (max h ((y.role r).heightMax.getD h)) })

/-- R99 to R105: the reactive, combined, clamped and rate-limited demand; the result lies between the floor and the ceiling
of the followed profile. -/
def Obligations.DemandIsJoinedClampedAndRateLimited : Prop :=
  ∀ (p : Profile) (r : Role) (position : Position) (velocity : Option Int) (effect : Option Slot) (last : Nat),
    let d := computeDemand p r position velocity effect last
    let reference := if last < p.floor then p.floor else if p.ceiling < last then p.ceiling else last
    (velocity = none → d.reactive = p.ceiling)
      ∧ (∀ v, velocity = some v → d.reactive = min 1000 (p.floor + p.gain * v.natAbs / 100))
      ∧ (effect = none → d.preview = none ∧ d.combined = d.reactive)
      ∧ (∀ x, effect = some x →
        d.preview = some (x.previewDemand p r position)
          ∧ (x.segment.override ≠ none ∨ (p.rowFor x.segment).combine = .replace →
            d.combined = x.previewDemand p r position)
          ∧ (x.segment.override = none → (p.rowFor x.segment).combine = .max →
            d.combined = max (x.previewDemand p r position) d.reactive)
          ∧ (x.segment.override = none → (p.rowFor x.segment).combine = .min →
            d.combined = min (x.previewDemand p r position) d.reactive))
      ∧ d.target = (if d.combined < p.floor then p.floor else if p.ceiling < d.combined then p.ceiling else d.combined)
      ∧ (reference + p.rateLimit < d.target → d.final = reference + p.rateLimit)
      ∧ (d.target + p.rateLimit < reference → d.final = reference - p.rateLimit)
      ∧ (d.target ≤ reference + p.rateLimit → reference ≤ d.target + p.rateLimit → d.final = d.target)
      ∧ (p.floor ≤ p.ceiling → p.floor ≤ d.final ∧ d.final ≤ p.ceiling)

/-- R91: an update outside RUN takes a MISS notice, makes the previous height absent, tells quiet, and hands its conditions to
the bookkeeping; it changes nothing else. -/
def Obligations.UpdateOutsideRunOnlyTakesTheNotice : Prop :=
  ∀ (s : State) (c : Corner) (raw : Int), s.resetHeld = false → s.mdc.mode ≠ .run → (s.vd.get c).state ≠ .drive →
    let x := s.cc.get c
    let u : UpdateSet := { miss := x.missNotice }
    let captures := x.missNotice = true ∧ x.bits.gap = .clear ∧ x.enabled.gap = true
    let origin := if captures then
        ({ tag := 0, role := some c.role, position := some (s.cornerPosition c), previewDemand := none
           reactiveDemand := none, finalDemand := none, conditions := some u, driverState := some (s.vd.get c).state
           followed := some x.followed } : OriginRecord)
      else x.origin
    exec (.update c raw) s = .next
      ((s.setVd c { s.vd.get c with quiet := true }).setCc c
        { x with
          missNotice := false, previousHeight := none, conditions := u, origin
          bits :=
            { x.bits with
              gap :=
                if x.missNotice = true ∧ x.bits.gap = .clear then
                  (if x.enabled.gap = true then .waiting origin else .unreported)
                else x.bits.gap } })

/-! ## Update Conditions and Origin Records (chapter 06) -/

/-- R113, R114, R116: the bookkeeping at the end of an update; and a bit once set, which is every state but CLEAR, stays set
until CLEAR_CONDITIONS, RESTART or full reset. -/
def Obligations.AccruedBitsStayUntilTheHostClearsThem : Prop :=
  (∀ (x : Cc) (u : UpdateSet) (captured : OriginRecord),
    let derived : PerBit Bool :=
      { limit := u.sat || u.rate, gap := u.nopv || u.miss, sense := u.subst || u.slost, holdup := u.held
        unmet := (u.ovrd && u.sat) || (u.ovrd && u.rate) }
    let newly := fun b => x.bits.get b = .clear ∧ derived.get b = true
    let y := x.accrue u captured
    ((∃ b, newly b ∧ x.enabled.get b = true) → y.origin = captured)
      ∧ ((∀ b, newly b → x.enabled.get b = false) → y.origin = x.origin)
      ∧ (∀ b, newly b → y.bits.get b = if x.enabled.get b = true then .waiting captured else .unreported)
      ∧ (∀ b, ¬newly b → y.bits.get b = x.bits.get b)
      ∧ y = { x with conditions := u, origin := y.origin, bits := y.bits })
    ∧ (∀ (c : Instr) (s t : State) (k : Corner) (b : AccruedBit), exec c s = .next t →
      ((s.cc.get k).bits.get b).isSet = true → (∀ m n, takenAs c ≠ .clearConditions m n) → takenAs c ≠ .restart →
      (∀ cause, c ≠ .fullReset cause) → ((t.cc.get k).bits.get b).isSet = true)
    ∧ ∀ b : BitState, b.isSet = true ↔ b ≠ .clear

/-- R115, R117, R118: SET_REPORTING replaces the report enable set; each UNREPORTED bit that is now enabled becomes WAITING
with a copy of the origin record, and every other bit keeps its state. A reply for a corner out of range carries an enable set
of 0 (R199, assumption log 23). -/
def Obligations.SetReportingReplacesTheEnableSet : Prop :=
  ∀ (s : State) (corner bits : Byte), s.delivers →
    let refuse := fun enabled => s.delivered.place (.reply (.setReporting .range corner enabled))
    let new : PerBit Bool :=
      ⟨bits.getLsbD 0, bits.getLsbD 1, bits.getLsbD 2, bits.getLsbD 3, bits.getLsbD 4⟩
    (3 < corner.toNat → exec (.setReporting corner bits) s = .next (refuse ⟨false, false, false, false, false⟩))
      ∧ ∀ c, cornerOf corner = some c →
        (32 ≤ bits.toNat → exec (.setReporting corner bits) s = .next (refuse (s.cc.get c).enabled))
          ∧ (bits.toNat < 32 →
            exec (.setReporting corner bits) s = .next
              ((s.delivered.setCc c
                { s.cc.get c with
                  enabled := new
                  bits := PerBit.of fun b =>
                    if (s.cc.get c).bits.get b = .unreported ∧ new.get b = true then .waiting (s.cc.get c).origin
                    else (s.cc.get c).bits.get b }).place (.reply (.setReporting .ok corner new))))

/-- R122: CLEAR_CONDITIONS makes each bit named CLEAR and drops its report, and empties the origin record where every bit is
then CLEAR. A reply for a corner out of range carries an accrued set of 0 (R199, assumption log 23). -/
def Obligations.ClearConditionsClearsTheBitsNamed : Prop :=
  ∀ (s : State) (corner bits : Byte), s.delivers →
    let refuse := fun accrued => s.delivered.place (.reply (.clearConditions .range corner accrued))
    let named : PerBit Bool :=
      ⟨bits.getLsbD 0, bits.getLsbD 1, bits.getLsbD 2, bits.getLsbD 3, bits.getLsbD 4⟩
    (3 < corner.toNat → exec (.clearConditions corner bits) s = .next (refuse ⟨false, false, false, false, false⟩))
      ∧ ∀ c, cornerOf corner = some c →
        let x := s.cc.get c
        let after := PerBit.of fun b => if named.get b = true then BitState.clear else x.bits.get b
        (32 ≤ bits.toNat →
            exec (.clearConditions corner bits) s = .next (refuse (PerBit.of fun b => (x.bits.get b).isSet)))
          ∧ (bits.toNat < 32 →
            ∃ origin, exec (.clearConditions corner bits) s = .next
                ((s.delivered.setCc c { x with bits := after, origin }).place
                  (.reply (.clearConditions .ok corner (PerBit.of fun b => (after.get b).isSet))))
              ∧ ((∀ b, after.get b = .clear) → origin =
                { tag := 0, role := none, position := none, previewDemand := none, reactiveDemand := none
                  finalDemand := none, conditions := none, driverState := none, followed := none })
              ∧ ((∃ b, after.get b ≠ .clear) → origin = x.origin))

/-- R121: READ_ORIGIN replies with the origin record and the accrued set of the corner, and changes no state. A reply for a
corner out of range carries an accrued set of 0 and the empty record (R199, assumption log 23). -/
def Obligations.ReadOriginReportsTheRecord : Prop :=
  ∀ (s : State) (corner : Byte), s.delivers →
    (3 < corner.toNat →
        exec (.readOrigin corner) s = .next (s.delivered.place
          (.reply (.readOrigin .range corner ⟨false, false, false, false, false⟩ OriginRecord.empty))))
      ∧ (corner.toNat ≤ 3 → ∃ c, cornerOf corner = some c
        ∧ exec (.readOrigin corner) s = .next (s.delivered.place
          (.reply (.readOrigin .ok corner (PerBit.of fun b => ((s.cc.get c).bits.get b).isSet) (s.cc.get c).origin))))

/-! ## Valve Drivers, Faults and Escalation (chapters 07 and 08) -/

/-- R127, R128, R132, R133: the map that each corner uses, by the separate-maps flag of its axle; the map current of a demand,
the classification of a resistance, and the temperature estimate. The contents of groups 3 and 4 as every block reads them. -/
def Obligations.MapGivesCurrentClassAndTemperature : Prop :=
  (∀ (m : ValveMap) (cap : Nat), m.passes cap = true →
    (∀ p ∈ m.points, m.current p.demand = p.current)
      ∧ (∀ earlier p q later d, m.points = earlier ++ p :: q :: later → p.demand < d → d < q.demand →
        m.current d = p.current - (p.current - q.current) * (d - p.demand) / (q.demand - p.demand)
          ∧ q.current ≤ m.current d ∧ m.current d ≤ p.current)
      ∧ ∀ d, m.current d ≤ cap)
    ∧ (∀ (m : ValveMap) (r : Nat), m.shortLimit ≤ m.openLimit →
      (m.classify r = .short ↔ r < m.shortLimit) ∧ (m.classify r = .openCircuit ↔ m.openLimit < r)
        ∧ (m.classify r = .ok ↔ m.shortLimit ≤ r ∧ r ≤ m.openLimit))
    ∧ (∀ (m : ValveMap) (r : Nat),
      m.temperatureOf r = max (-40) (min 250
        ((((r : Int) - m.coldResistance) * 100000).tdiv (393 * m.coldResistance) + 20)))
    ∧ (∀ (s : State) (v : ValveMaps), s.cfs.valveMaps = some v →
      (∀ m, v.front = .shared m → s.map .fl = m ∧ s.map .fr = m)
        ∧ (∀ left right, v.front = .separate left right → s.map .fl = left ∧ s.map .fr = right)
        ∧ (∀ m, v.rear = .shared m → s.map .rl = m ∧ s.map .rr = m)
        ∧ (∀ left right, v.rear = .separate left right → s.map .rl = left ∧ s.map .rr = right)
        ∧ (s.contentsPass → ∃ g, s.cfs.geometry = some g
          ∧ (g.separateFront = true ↔ ∃ left right, v.front = .separate left right)
          ∧ (g.separateRear = true ↔ ∃ left right, v.rear = .separate left right)))
    ∧ (∀ (s : State) (g : Geometry), s.cfs.geometry = some g → s.geometry = g)
    ∧ ∀ (s : State) (l : Limits), s.cfs.limits = some l → s.limits = l

/-- R139, R142: the findings of TRIM_AHEAD in order; an accepted one sets the pull-in count, and starts a trim where the quiet
copy is quiet. A reply for a corner out of range carries a balance and a count of 0 (R199, assumption log 23). -/
def Obligations.TrimAheadAsksForPullIns : Prop :=
  ∀ (s : State) (corner count : Byte), s.delivers →
    (cornerOf corner = none →
        exec (.trimAhead corner count) s = .next (s.delivered.place
          (.reply (.trimAhead (if s.mdc.mode = .run then .range else .mode) corner count 0 0))))
      ∧ ∀ c, cornerOf corner = some c →
        let v := s.vd.get c
        let refuse := fun code => s.delivered.place (.reply (.trimAhead code corner count v.balance v.pullIn))
        (s.mdc.mode ≠ .run → exec (.trimAhead corner count) s = .next (refuse .mode))
          ∧ (s.mdc.mode = .run →
            (count.toNat = 0 ∨ 4 < count.toNat → exec (.trimAhead corner count) s = .next (refuse .range))
              ∧ (1 ≤ count.toNat → count.toNat ≤ 4 →
                (v.state ≠ .drive → exec (.trimAhead corner count) s = .next (refuse .mode))
                  ∧ (v.state = .drive → v.balance - count.toNat < -4 →
                    exec (.trimAhead corner count) s = .next (refuse .range))
                  ∧ (v.state = .drive → -4 ≤ v.balance - count.toNat →
                    exec (.trimAhead corner count) s = .next
                      ((s.delivered.setVd c
                        (if v.quiet = true then
                          { v with
                            pullIn := count.toNat, state := .trim, operation := .running 3, tracking := .stopped
                            trim := some { origin := .drive, kind := if 0 < v.balance then .due else .pullIn } }
                        else { v with pullIn := count.toNat })).place
                          (.reply (.trimAhead .ok corner count v.balance count.toNat))))))

/-- R164, R165: the findings of RECHECK in order; an accepted one takes the driver from FAULTED to CHECKING and lowers the
faulted count. A reply for a corner out of range carries no driver state, and a retry count of 0 (R199, assumption log 23). -/
def Obligations.RecheckChecksAFaultedCoilAgain : Prop :=
  ∀ (s : State) (corner : Byte), s.delivers →
    (cornerOf corner = none →
        exec (.recheck corner) s = .next (s.delivered.place
          (.reply (.recheck (if s.mdc.mode = .run then .range else .mode) corner none 0))))
      ∧ ∀ c, cornerOf corner = some c →
        let v := s.vd.get c
        let refuse := fun code => s.delivered.place (.reply (.recheck code corner (some v.state) v.retryCount))
        (s.mdc.mode ≠ .run → exec (.recheck corner) s = .next (refuse .mode))
          ∧ (s.mdc.mode = .run → v.state ≠ .faulted → exec (.recheck corner) s = .next (refuse .state))
          ∧ (s.mdc.mode = .run → v.state = .faulted → v.retryCount = 3 →
            exec (.recheck corner) s = .next (refuse .retries))
          ∧ (s.mdc.mode = .run → v.state = .faulted → v.retryCount ≠ 3 →
            exec (.recheck corner) s = .next
              (((s.delivered.setVd c
                { v with
                  state := .checking, setpoint := 250, operation := .running 40, trim := none, trimTimer := .stopped
                  tracking := .stopped, pullIn := 0 }).setMdc
                    { s.delivered.mdc with faultedCount := s.mdc.faultedCount - 1 }).place
                      (.reply (.recheck .ok corner (some .checking) v.retryCount))))

/-- R147, R148: a current sample becomes the measured current; above the overcurrent threshold it is a fault in CHECKING, DRIVE,
TRIM and HOLD; in DRIVE and HOLD it is judged against the tracking band; the expiry of a running tracking timer is a
fault. -/
def Obligations.CurrentSamplesAreJudged : Prop :=
  ∀ (s : State) (c : Corner) (current : Nat), s.resetHeld = false →
    let v := s.vd.get c
    let l := s.limits
    let reading := min 2500 current
    let kept := s.setVd c { v with measured := reading }
    let watched := v.state = .checking ∨ v.state = .drive ∨ v.state = .trim ∨ v.state = .hold
    let tracked := v.state = .drive ∨ v.state = .hold
    let outside := v.setpoint + l.trackingBand < reading ∨ reading + l.trackingBand < v.setpoint
    (watched → l.overcurrent < reading →
        exec (.currentSample c current) s = .next (kept.enterFaulted c .overcurrent reading))
      ∧ (¬tracked → (¬watched ∨ reading ≤ l.overcurrent) → exec (.currentSample c current) s = .next kept)
      ∧ (tracked → reading ≤ l.overcurrent → outside → exec (.currentSample c current) s = .next
          (s.setVd c
            { v with
              measured := reading
              tracking := if v.tracking = .stopped then .running l.trackingWindow else v.tracking }))
      ∧ (tracked → reading ≤ l.overcurrent → ¬outside → exec (.currentSample c current) s = .next
          (s.setVd c { v with measured := reading, tracking := .stopped }))
      ∧ (tracked → v.tracking ≠ .stopped →
        exec (.trackingTimerExpiry c) s = .next (s.enterFaulted c .tracking v.measured))

/-- R84, R153 to R156, R160 to R163: entry to FAULTED releases the coil, writes the record, raises the counts and places the
report; in RUN a corner whose driver leaves DRIVE or TRIM so makes a switch that it has to make; the first fault in RUN leaves
the other drivers alone, the second enters SAFE, which releases them, tells each that its corner is quiet (R149), makes every
previous height absent (R109) and makes a MODE report (R175). -/
def Obligations.FaultIsContainedAndTheSecondEntersSafe : Prop :=
  ∀ (s : State) (c : Corner) (kind : FaultKind) (measured : Nat),
    let v := s.vd.get c
    let t := s.enterFaulted c kind measured
    let record : FaultRecord :=
      { kind, state := v.state, mode := s.mdc.mode, measured, setpoint := v.setpoint, position := s.cornerPosition c }
    let w := t.vd.get c
    let switches := s.mdc.mode = .run ∧ (v.state = .drive ∨ v.state = .trim)
      ∧ ∃ p, s.cfs.pendingProfile = some p ∧ (s.cc.get c).followed ≠ p
    w = { v with
          state := .faulted, setpoint := 0, operation := .stopped, trim := none, trimTimer := .stopped
          tracking := .stopped, pullIn := 0, faultRecord := some record, retryCount := min 3 (v.retryCount + 1)
          quiet := w.quiet
          faultMarker := some { corner := c, record, retryCount := min 3 (v.retryCount + 1) } }
      ∧ t.mdc.faultedCount = s.mdc.faultedCount + 1
      ∧ t.lif = s.lif ∧ t.tod = s.tod ∧ t.pending = s.pending
      ∧ (s.mdc.mode = .run → s.mdc.faultedCount = 0 →
        t.mdc = { s.mdc with faultedCount := 1 } ∧ t.pvs = s.pvs ∧ w.quiet = v.quiet
          ∧ (t.cc.get c = { s.cc.get c with
              followed := (t.cc.get c).followed, switchReference := (t.cc.get c).switchReference
              switchPosition := (t.cc.get c).switchPosition })
          ∧ ∀ e, e ≠ c → t.vd.get e = s.vd.get e ∧ t.cc.get e = s.cc.get e)
      ∧ (switches → s.hasSwitched t c) ∧ (¬switches → s.pendingAgrees → s.keepsProfile t c)
      ∧ (s.mdc.faultedCount = 1 →
        t.pvs = { (s.pvs.flush .left).flush .right with preview := .suspended }
          ∧ (t.mdc =
            { mode := .safe, faultedCount := 2, supersededCount := s.mdc.nextSuperseded
              checkEnds :=
                if v.state = .checking ∧ s.mdc.mode = .starting then s.mdc.checkEnds.set c (some .faulted)
                else s.mdc.checkEnds
              marker := some
                { cause := .secondFault, mode := .safe, previous := s.mdc.mode, preview := .suspended, faultedCount := 2
                  superseded := s.mdc.nextSuperseded } })
          ∧ w.quiet = true
          ∧ (t.cc.get c = { s.cc.get c with
              previousHeight := none, followed := (t.cc.get c).followed
              switchReference := (t.cc.get c).switchReference, switchPosition := (t.cc.get c).switchPosition })
          ∧ (∀ e, e ≠ c → t.cc.get e = { s.cc.get e with previousHeight := none })
          ∧ ∀ e, e ≠ c → t.vd.get e =
            { s.vd.get e with
              state := if (s.vd.get e).state = .faulted then .faulted else .released
              setpoint := 0, operation := .stopped, trim := none, trimTimer := .stopped, pullIn := 0
              tracking := .stopped, quiet := true })

/-- R132, R134, R153, R157, R171, R135: a check completes in STARTING: SHORT and OPEN fault the driver, OK arms it. A first
fault that ends a check in STARTING is a check end too, with FAULTED. The fourth end, of which at most one is FAULTED, brings
the part to RUN, where each ARMED driver enters DRIVE, or HOLD if it is hot. -/
def Obligations.StartChecksEndInRun : Prop :=
  ∀ (s : State) (c : Corner), s.resetHeld = false → s.mdc.mode = .starting → (s.vd.get c).state = .checking →
    let m := s.map c
    let v := s.vd.get c
    let last := fun u : State => (∀ e, u.mdc.checkEnds.get e ≠ none)
      ∧ ([Corner.fl, .fr, .rl, .rr].filter fun e => u.mdc.checkEnds.get e = some .faulted).length ≤ 1
    let entersRun := fun u t : State =>
      t.mdc =
          { u.mdc with
            mode := .run, supersededCount := u.mdc.nextSuperseded
            marker := some
              { cause := .checksEnded, mode := .run, previous := .starting, preview := .active
                faultedCount := u.mdc.faultedCount, superseded := u.mdc.nextSuperseded } }
        ∧ t.pvs = { u.pvs with preview := .active } ∧ t.tod = u.tod ∧ t.lif = u.lif ∧ t.cfs = u.cfs
        ∧ ∀ e,
          let v := u.vd.get e
          let floor := (u.followedProfile e).floor
          let hot := ∃ h, v.temperature = some h ∧ (u.limits.hot : Int) ≤ h
          let warm := ∃ h, v.temperature = some h ∧ (u.limits.warm : Int) ≤ h
          let x := { u.cc.get e with badRun := 0, ownVelocity := 0, previousHeight := none }
          (v.state ≠ .armed →
              t.vd.get e = { v with pullIn := 0, tracking := .stopped, operation := .stopped, quiet := true }
                ∧ t.cc.get e = x)
            ∧ (v.state = .armed →
              t.cc.get e = { x with lastDemand := floor }
                ∧ t.vd.get e =
                  { v with
                    state := if hot then .hold else .drive
                    setpoint := if hot then (u.map e).holdCurrent else (u.map e).current floor
                    heldDemand := floor, balance := 0, pullIn := 0, quiet := true, trim := none
                    trimTimer := .running (if warm then u.limits.trimInterval / 2 else u.limits.trimInterval)
                    tracking := .stopped, operation := .stopped })
    (∀ r : Fin 10000,
      let armed :=
        (s.setVd c
          { v with
            state := .armed, setpoint := 0, operation := .stopped, trim := none, trimTimer := .stopped, pullIn := 0
            tracking := .stopped, resistance := some r.val, temperature := some (m.temperatureOf r.val) }).setMdc
              { s.mdc with checkEnds := s.mdc.checkEnds.set c (some .armed) }
      (r.val < m.shortLimit → exec (.checkCompletion c r) s = .next (s.enterFaulted c .shortCoil r.val))
        ∧ (m.shortLimit ≤ r.val → m.openLimit < r.val →
          exec (.checkCompletion c r) s = .next (s.enterFaulted c .openCoil r.val))
        ∧ (m.shortLimit ≤ r.val → r.val ≤ m.openLimit → ¬last armed → exec (.checkCompletion c r) s = .next armed)
        ∧ (m.shortLimit ≤ r.val → r.val ≤ m.openLimit → last armed → s.pendingAgrees →
          ∃ t, exec (.checkCompletion c r) s = .next t ∧ entersRun armed t))
      ∧ ∀ (kind : FaultKind) (measured : Nat), s.mdc.faultedCount = 0 →
        let record : FaultRecord :=
          { kind, state := .checking, mode := .starting, measured, setpoint := v.setpoint, position := s.cornerPosition c }
        let faulted :=
          (s.setVd c
            { v with
              state := .faulted, setpoint := 0, operation := .stopped, trim := none, trimTimer := .stopped, pullIn := 0
              tracking := .stopped, faultRecord := some record, retryCount := min 3 (v.retryCount + 1)
              faultMarker := some { corner := c, record, retryCount := min 3 (v.retryCount + 1) } }).setMdc
                { s.mdc with faultedCount := 1, checkEnds := s.mdc.checkEnds.set c (some .faulted) }
        (¬last faulted → s.enterFaulted c kind measured = faulted)
          ∧ (last faulted → s.pendingAgrees → entersRun faulted (s.enterFaulted c kind measured))

/-- R134, R165: a check completes in RUN: SHORT and OPEN fault the driver again, OK brings it to DRIVE at the floor of its
profile, or to HOLD if it is hot, with balance and pull-in count 0 and the trim timer started. -/
def Obligations.RecheckEndsInDriveOrHold : Prop :=
  ∀ (s : State) (c : Corner) (r : Fin 10000), s.resetHeld = false → s.mdc.mode = .run → (s.vd.get c).state = .checking →
    let m := s.map c
    let v := s.vd.get c
    let temperature := m.temperatureOf r.val
    let floor := (s.followedProfile c).floor
    let ready : Vd :=
      { v with
        resistance := some r.val, temperature := some temperature, balance := 0, pullIn := 0, operation := .stopped
        trim := none, tracking := .stopped
        trimTimer := .running
          (if (s.limits.warm : Int) ≤ temperature then s.limits.trimInterval / 2 else s.limits.trimInterval) }
    (r.val < m.shortLimit → exec (.checkCompletion c r) s = .next (s.enterFaulted c .shortCoil r.val))
      ∧ (m.shortLimit ≤ r.val → m.openLimit < r.val →
        exec (.checkCompletion c r) s = .next (s.enterFaulted c .openCoil r.val))
      ∧ (m.shortLimit ≤ r.val → r.val ≤ m.openLimit →
        ((s.limits.hot : Int) ≤ temperature →
            exec (.checkCompletion c r) s = .next (s.setVd c { ready with state := .hold, setpoint := m.holdCurrent }))
          ∧ (temperature < s.limits.hot →
            exec (.checkCompletion c r) s = .next
              ((s.setVd c { ready with state := .drive, setpoint := m.current floor, heldDemand := floor }).setCc c
                { s.cc.get c with lastDemand := floor })))

/-- R145, R130, R146, R84, R85: a trim completes: SHORT and OPEN fault the driver; OK lowers the balance, and the pull-in count of a
PULL_IN trim, and the driver leaves TRIM by the trim origin and its estimate, for HOLD or for DRIVE, where it makes its
start test; a corner with a switch to make switches at the entry to HOLD. -/
def Obligations.TrimCompletionLeavesTrim : Prop :=
  ∀ (s : State) (c : Corner) (r : Fin 10000) (trim : Trim), s.resetHeld = false → s.mdc.mode = .run →
    (s.vd.get c).state = .trim → (s.vd.get c).trim = some trim →
    let m := s.map c
    let v := s.vd.get c
    let temperature := m.temperatureOf r.val
    let floor := (s.followedProfile c).floor
    let switches := ∃ p, s.cfs.pendingProfile = some p ∧ (s.cc.get c).followed ≠ p
    let done : Vd :=
      { v with
        resistance := some r.val, temperature := some temperature, balance := v.balance - 1
        pullIn := if trim.kind = .pullIn then v.pullIn - 1 else v.pullIn
        operation := .stopped, trim := none, tracking := .stopped }
    (r.val < m.shortLimit → exec (.trimCompletion c r) s = .next (s.enterFaulted c .shortCoil r.val))
      ∧ (m.shortLimit ≤ r.val → m.openLimit < r.val →
        exec (.trimCompletion c r) s = .next (s.enterFaulted c .openCoil r.val))
      ∧ (m.shortLimit ≤ r.val → r.val ≤ m.openLimit →
        (trim.origin = .drive → temperature < s.limits.hot →
            exec (.trimCompletion c r) s = .next
              ((s.setVd c { done with state := .drive, setpoint := m.current v.heldDemand }).driveStartTest c))
          ∧ (trim.origin = .hold → temperature < s.limits.warm →
            exec (.trimCompletion c r) s = .next
              (((s.setVd c { done with state := .drive, setpoint := m.current floor, heldDemand := floor }).setCc c
                { s.cc.get c with lastDemand := floor }).driveStartTest c))
          ∧ ((trim.origin = .drive ∧ (s.limits.hot : Int) ≤ temperature)
              ∨ (trim.origin = .hold ∧ (s.limits.warm : Int) ≤ temperature) →
            ∃ t, exec (.trimCompletion c r) s = .next (t.holdStartTest c)
              ∧ t.vd = s.vd.set c { done with state := .hold, setpoint := m.holdCurrent, pullIn := 0 }
              ∧ (switches → s.hasSwitched t c ∧ t.cc.get c = { s.cc.get c with
                  followed := (t.cc.get c).followed, switchReference := (t.cc.get c).switchReference
                  switchPosition := (t.cc.get c).switchPosition })
              ∧ (¬switches → t = s.setVd c (t.vd.get c))
              ∧ (∀ e, e ≠ c → t.cc.get e = s.cc.get e) ∧ t.mdc = s.mdc ∧ t.tod = s.tod ∧ t.pvs = s.pvs ∧ t.lif = s.lif))
      ∧ ∀ u : State,
        let w := u.vd.get c
        u.driveStartTest c =
            (if w.state = .drive ∧ w.quiet = true ∧ (0 < w.balance ∨ 0 < w.pullIn) then
              u.setVd c
                { w with
                  state := .trim, operation := .running 3, tracking := .stopped
                  trim := some { origin := .drive, kind := if 0 < w.balance then .due else .pullIn } }
            else u)
          ∧ u.holdStartTest c =
            (if w.state = .hold ∧ 0 < w.balance then
              u.setVd c
                { w with
                  state := .trim, operation := .running 3, tracking := .stopped
                  trim := some { origin := .hold, kind := .due } }
            else u)

/-- R136, R137, R139 to R141: a trim timer expiry raises the balance and starts the timer again with the interval in force;
it starts a trim in HOLD, in DRIVE while quiet, and in DRIVE at +8 whatever the quiet copy. -/
def Obligations.TrimTimerExpiryRaisesTheBalance : Prop :=
  ∀ (s : State) (c : Corner) (limit : Nat), s.resetHeld = false → (s.vd.get c).trimTimer = .running limit →
    let v := s.vd.get c
    let warm := ∃ h, v.temperature = some h ∧ (s.limits.warm : Int) ≤ h
    let raised : Vd :=
      { v with
        balance := v.balance + 1
        trimTimer := .running (if warm then s.limits.trimInterval / 2 else s.limits.trimInterval) }
    let trims := fun origin kind =>
      ({ raised with state := .trim, operation := .running 3, tracking := .stopped, trim := some { origin, kind } } : Vd)
    exec (.trimTimerExpiry c) s = .next (s.setVd c
      (if v.state = .drive ∧ (v.balance + 1 = 8 ∨ (v.quiet = true ∧ 0 < v.balance + 1)) then trims .drive .due
      else if v.state = .drive ∧ v.quiet = true ∧ 0 < v.pullIn then trims .drive .pullIn
      else if v.state = .hold ∧ 0 < v.balance + 1 then trims .hold .due
      else raised))

/-- R137, R142: every step of a machine whose drivers agree with the mode keeps every trim balance at -4 or above, with the
pull-in trims still to be made counted in. -/
def Obligations.TrimBalanceNeverFallsBelowMinusFour : Prop :=
  ∀ s t : State, step s = .next t → s.modesAgree → s.trimsBounded → t.trimsBounded

/-- R129: the held demand of a driver is always its corner's last demand. -/
def Obligations.HeldDemandIsTheLastDemand : Prop :=
  ∀ s t : State, step s = .next t → s.heldIsLast → t.heldIsLast

end Statements
end

