-- ==== Sys2Proof/Laws/Bytes.lean ====
section
/-! SUPPORT. What the fields of the link are, byte by byte, that a field is read back as it was written, and that the CRC
is a division bit by bit (R199). -/

namespace Sys2Proof.Machine

/-! ## The bytes of a field -/

theorem bytesOfNat_eq (n : Nat) : bytesOfNat n = [BitVec.ofNat 8 (n / 256), BitVec.ofNat 8 n] := by
  simp only [bytesOfNat, bytesOfHalf, List.cons.injEq, and_true]
  constructor
  all_goals
    apply BitVec.eq_of_toNat_eq
    simp [BitVec.extractLsb'_toNat, Nat.shiftRight_eq_div_pow]
  omega

theorem bytesOfHalf_eq (h : Half) : bytesOfHalf h = [BitVec.ofNat 8 (h.toNat / 256), BitVec.ofNat 8 h.toNat] := by
  rw [← bytesOfNat_eq, bytesOfNat, BitVec.ofNat_toNat, BitVec.setWidth_eq]

theorem bytesOfWord_eq (w : Position) :
    bytesOfWord w = bytesOfNat (w.toNat / 65536) ++ bytesOfNat w.toNat := by
  simp only [bytesOfWord, bytesOfHalf, bytesOfNat_eq, List.cons.injEq, and_true, List.cons_append, List.nil_append]
  refine ⟨?_, ?_, ?_, ?_⟩
  all_goals
    apply BitVec.eq_of_toNat_eq
    simp [BitVec.extractLsb'_toNat, Nat.shiftRight_eq_div_pow]
  all_goals omega

theorem bytesOfNat4_eq (n : Nat) : bytesOfNat4 n = bytesOfNat (n / 65536) ++ bytesOfNat n := by
  rw [bytesOfNat4, bytesOfWord_eq]
  simp only [bytesOfNat_eq, List.cons.injEq, and_true, List.cons_append, List.nil_append]
  refine ⟨?_, ?_, ?_, ?_⟩
  all_goals
    apply BitVec.eq_of_toNat_eq
    simp
  all_goals omega

theorem bytesOfInt_eq (n : Int) : bytesOfInt n = [BitVec.ofInt 8 (n / 256), BitVec.ofInt 8 n] := by
  simp only [bytesOfInt, bytesOfHalf, List.cons.injEq, and_true]
  constructor
  all_goals
    apply BitVec.eq_of_toNat_eq
    simp [BitVec.extractLsb'_toNat, Nat.shiftRight_eq_div_pow]
  all_goals omega

/-! ## Reading back -/

/-- The two bytes of a field are the field. -/
theorem extract_append_extract (h : Half) : (h.extractLsb' 8 8 ++ h.extractLsb' 0 8 : Half) = h := by
  apply BitVec.eq_of_toNat_eq
  rw [BitVec.toNat_append, BitVec.extractLsb'_toNat, BitVec.extractLsb'_toNat,
    ← Nat.shiftLeft_add_eq_or_of_lt (by omega), Nat.shiftLeft_eq, Nat.shiftRight_eq_div_pow]
  omega

/-- A byte past the front of a body is the byte of the rest. -/
theorem byteAt_append (front rest : List Byte) (n : Nat) : byteAt (front ++ rest) (front.length + n) = byteAt rest n := by
  rw [byteAt, byteAt, List.getD_eq_getElem?_getD, List.getD_eq_getElem?_getD, List.getElem?_append_right (by omega)]
  congr 2
  omega

/-! ## The CRC -/

/-- A step of the division is linear. -/
theorem crcShift_xor (a b : Half) : crcShift (a ^^^ b) = crcShift a ^^^ crcShift b := by
  have twice : ∀ x y z : Half, x ^^^ z ^^^ (y ^^^ z) = x ^^^ y := by
    intro x y z
    rw [BitVec.xor_comm y z, ← BitVec.xor_assoc, BitVec.xor_assoc x z z, BitVec.xor_self, BitVec.xor_zero]
  simp only [crcShift, BitVec.msb_xor, BitVec.shiftLeft_xor_distrib]
  cases a.msb <;> cases b.msb <;> simp [twice] <;> ac_rfl

theorem crcShifts_xor (n : Nat) (a b : Half) : crcShifts n (a ^^^ b) = crcShifts n a ^^^ crcShifts n b := by
  induction n generalizing a b with
  | zero => rfl
  | succ n ih => rw [crcShifts, crcShift_xor, ih, crcShifts, crcShifts]

/-- The division brought one bit further is one step of it with the bit joined at the most significant end. -/
theorem crcBit_eq (crc : Half) (bit : Bool) :
    (if crc.msb != bit then (crc <<< 1) ^^^ 0x1021 else crc <<< 1) = crcShift (crc ^^^ if bit then 0x8000 else 0) := by
  have top : (32768#16).msb = true := by decide
  rw [crcShift, BitVec.msb_xor, BitVec.shiftLeft_xor_distrib]
  cases bit <;> cases crc.msb <;> simp [top]

/-- The bits of a message divide apart from what the division starts from. -/
theorem foldl_crcBit (bits : List Bool) (a c : Half) :
    bits.foldl (fun (crc : Half) (bit : Bool) => if crc.msb != bit then (crc <<< 1) ^^^ 0x1021 else crc <<< 1) (a ^^^ c)
      = crcShifts bits.length a
        ^^^ bits.foldl
          (fun (crc : Half) (bit : Bool) => if crc.msb != bit then (crc <<< 1) ^^^ 0x1021 else crc <<< 1) c := by
  induction bits generalizing a c with
  | nil => rfl
  | cons bit bits ih =>
    simp only [List.foldl_cons, crcBit_eq, List.length_cons, crcShifts] at ih ⊢
    rw [BitVec.xor_assoc, crcShift_xor, ih]

set_option maxRecDepth 4000 in
/-- The CRC carried over a byte is the division by its bits, the most significant first. -/
theorem crcByte_eq_foldl (crc : Half) (b : Byte) :
    crcByte crc b = ([7, 6, 5, 4, 3, 2, 1, 0].map fun i => b.getLsbD i).foldl
      (fun (crc : Half) (bit : Bool) => if crc.msb != bit then (crc <<< 1) ^^^ 0x1021 else crc <<< 1) crc := by
  have fromZero : ∀ b : Byte, crcShifts 8 (b ++ (0 : Byte)) = ([7, 6, 5, 4, 3, 2, 1, 0].map fun i => b.getLsbD i).foldl
      (fun (crc : Half) (bit : Bool) => if crc.msb != bit then (crc <<< 1) ^^^ 0x1021 else crc <<< 1) 0 := by decide
  have apart := foldl_crcBit ([7, 6, 5, 4, 3, 2, 1, 0].map fun i => b.getLsbD i) crc 0
  rw [show crc ^^^ 0 = crc from BitVec.xor_zero] at apart
  rw [apart, crcByte, crcShifts_xor, fromZero]
  rfl

end Sys2Proof.Machine
end

