-- ==== Sys2Proof/Laws/State.lean ====
section
/-! SUPPORT. What each field of State is after each write of Machine/Ops.lean, what a value per track, per corner, per bit
or per group is after a change of one of them. -/

namespace Sys2Proof.Machine

/-! ## One value per track, corner, bit or group -/

section Per

variable {α : Type}

@[simp] theorem PerTrack.get_of (f : Track → α) (t : Track) : (PerTrack.of f).get t = f t := by cases t <;> rfl

@[simp] theorem PerTrack.get_set_same (p : PerTrack α) (t : Track) (v : α) : (p.set t v).get t = v := by cases t <;> rfl

theorem PerTrack.get_set (p : PerTrack α) (t u : Track) (v : α) :
    (p.set t v).get u = if u = t then v else p.get u := by cases t <;> cases u <;> rfl

@[simp] theorem PerTrack.get_set_ne {t u : Track} (h : u ≠ t) (p : PerTrack α) (v : α) :
    (p.set t v).get u = p.get u := by rw [PerTrack.get_set, if_neg h]

@[simp] theorem PerTrack.set_get (p : PerTrack α) (t : Track) : p.set t (p.get t) = p := by cases t <;> rfl

@[simp] theorem PerTrack.set_set (p : PerTrack α) (t : Track) (v w : α) : (p.set t v).set t w = p.set t w := by
  cases t <;> rfl

theorem PerTrack.ext_get {p q : PerTrack α} (h : ∀ t, p.get t = q.get t) : p = q := by
  have hl := h .left
  have hr := h .right
  cases p
  cases q
  simp only [PerTrack.get] at hl hr
  rw [hl, hr]

@[simp] theorem PerCorner.get_of (f : Corner → α) (c : Corner) : (PerCorner.of f).get c = f c := by cases c <;> rfl

@[simp] theorem PerCorner.get_set_same (p : PerCorner α) (c : Corner) (v : α) : (p.set c v).get c = v := by
  cases c <;> rfl

theorem PerCorner.get_set (p : PerCorner α) (c d : Corner) (v : α) :
    (p.set c v).get d = if d = c then v else p.get d := by cases c <;> cases d <;> rfl

@[simp] theorem PerCorner.get_set_ne {c d : Corner} (h : d ≠ c) (p : PerCorner α) (v : α) :
    (p.set c v).get d = p.get d := by rw [PerCorner.get_set, if_neg h]

@[simp] theorem PerCorner.set_get (p : PerCorner α) (c : Corner) : p.set c (p.get c) = p := by cases c <;> rfl

@[simp] theorem PerCorner.set_set (p : PerCorner α) (c : Corner) (v w : α) : (p.set c v).set c w = p.set c w := by
  cases c <;> rfl

theorem PerCorner.ext_get {p q : PerCorner α} (h : ∀ c, p.get c = q.get c) : p = q := by
  have h1 := h .fl
  have h2 := h .fr
  have h3 := h .rl
  have h4 := h .rr
  cases p
  cases q
  simp only [PerCorner.get] at h1 h2 h3 h4
  rw [h1, h2, h3, h4]

@[simp] theorem PerBit.get_of (f : AccruedBit → α) (b : AccruedBit) : (PerBit.of f).get b = f b := by cases b <;> rfl

theorem PerBit.get_set (p : PerBit α) (b d : AccruedBit) (v : α) :
    (p.set b v).get d = if d = b then v else p.get d := by cases b <;> cases d <;> rfl

theorem PerBit.ext_get {p q : PerBit α} (h : ∀ b, p.get b = q.get b) : p = q := by
  have h1 := h .limit
  have h2 := h .gap
  have h3 := h .sense
  have h4 := h .holdup
  have h5 := h .unmet
  cases p
  cases q
  simp only [PerBit.get] at h1 h2 h3 h4 h5
  rw [h1, h2, h3, h4, h5]

@[simp] theorem PerGroup.get_of (f : GroupId → α) (g : GroupId) : (PerGroup.of f).get g = f g := by cases g <;> rfl

end Per

/-! ## One field after one write -/

variable (s : State)

@[simp] theorem State.setLif_pending (l : Lif) : (s.setLif l).pending = s.pending := rfl
@[simp] theorem State.setLif_resetHeld (l : Lif) : (s.setLif l).resetHeld = s.resetHeld := rfl
@[simp] theorem State.setLif_lif (l : Lif) : (s.setLif l).lif = l := rfl
@[simp] theorem State.setLif_cfs (l : Lif) : (s.setLif l).cfs = s.cfs := rfl
@[simp] theorem State.setLif_mdc (l : Lif) : (s.setLif l).mdc = s.mdc := rfl
@[simp] theorem State.setLif_tod (l : Lif) : (s.setLif l).tod = s.tod := rfl
@[simp] theorem State.setLif_pvs (l : Lif) : (s.setLif l).pvs = s.pvs := rfl
@[simp] theorem State.setLif_cc (l : Lif) : (s.setLif l).cc = s.cc := rfl
@[simp] theorem State.setLif_vd (l : Lif) : (s.setLif l).vd = s.vd := rfl

@[simp] theorem State.setCfs_pending (f : Cfs) : (s.setCfs f).pending = s.pending := rfl
@[simp] theorem State.setCfs_resetHeld (f : Cfs) : (s.setCfs f).resetHeld = s.resetHeld := rfl
@[simp] theorem State.setCfs_lif (f : Cfs) : (s.setCfs f).lif = s.lif := rfl
@[simp] theorem State.setCfs_cfs (f : Cfs) : (s.setCfs f).cfs = f := rfl
@[simp] theorem State.setCfs_mdc (f : Cfs) : (s.setCfs f).mdc = s.mdc := rfl
@[simp] theorem State.setCfs_tod (f : Cfs) : (s.setCfs f).tod = s.tod := rfl
@[simp] theorem State.setCfs_pvs (f : Cfs) : (s.setCfs f).pvs = s.pvs := rfl
@[simp] theorem State.setCfs_cc (f : Cfs) : (s.setCfs f).cc = s.cc := rfl
@[simp] theorem State.setCfs_vd (f : Cfs) : (s.setCfs f).vd = s.vd := rfl

@[simp] theorem State.setMdc_pending (m : Mdc) : (s.setMdc m).pending = s.pending := rfl
@[simp] theorem State.setMdc_resetHeld (m : Mdc) : (s.setMdc m).resetHeld = s.resetHeld := rfl
@[simp] theorem State.setMdc_lif (m : Mdc) : (s.setMdc m).lif = s.lif := rfl
@[simp] theorem State.setMdc_cfs (m : Mdc) : (s.setMdc m).cfs = s.cfs := rfl
@[simp] theorem State.setMdc_mdc (m : Mdc) : (s.setMdc m).mdc = m := rfl
@[simp] theorem State.setMdc_tod (m : Mdc) : (s.setMdc m).tod = s.tod := rfl
@[simp] theorem State.setMdc_pvs (m : Mdc) : (s.setMdc m).pvs = s.pvs := rfl
@[simp] theorem State.setMdc_cc (m : Mdc) : (s.setMdc m).cc = s.cc := rfl
@[simp] theorem State.setMdc_vd (m : Mdc) : (s.setMdc m).vd = s.vd := rfl

@[simp] theorem State.setPvs_pending (p : Store) : (s.setPvs p).pending = s.pending := rfl
@[simp] theorem State.setPvs_resetHeld (p : Store) : (s.setPvs p).resetHeld = s.resetHeld := rfl
@[simp] theorem State.setPvs_lif (p : Store) : (s.setPvs p).lif = s.lif := rfl
@[simp] theorem State.setPvs_cfs (p : Store) : (s.setPvs p).cfs = s.cfs := rfl
@[simp] theorem State.setPvs_mdc (p : Store) : (s.setPvs p).mdc = s.mdc := rfl
@[simp] theorem State.setPvs_tod (p : Store) : (s.setPvs p).tod = s.tod := rfl
@[simp] theorem State.setPvs_pvs (p : Store) : (s.setPvs p).pvs = p := rfl
@[simp] theorem State.setPvs_cc (p : Store) : (s.setPvs p).cc = s.cc := rfl
@[simp] theorem State.setPvs_vd (p : Store) : (s.setPvs p).vd = s.vd := rfl

@[simp] theorem State.setTod_pending (t : Track) (o : Tod) : (s.setTod t o).pending = s.pending := rfl
@[simp] theorem State.setTod_resetHeld (t : Track) (o : Tod) : (s.setTod t o).resetHeld = s.resetHeld := rfl
@[simp] theorem State.setTod_lif (t : Track) (o : Tod) : (s.setTod t o).lif = s.lif := rfl
@[simp] theorem State.setTod_cfs (t : Track) (o : Tod) : (s.setTod t o).cfs = s.cfs := rfl
@[simp] theorem State.setTod_mdc (t : Track) (o : Tod) : (s.setTod t o).mdc = s.mdc := rfl
@[simp] theorem State.setTod_tod (t : Track) (o : Tod) : (s.setTod t o).tod = s.tod.set t o := rfl
@[simp] theorem State.setTod_pvs (t : Track) (o : Tod) : (s.setTod t o).pvs = s.pvs := rfl
@[simp] theorem State.setTod_cc (t : Track) (o : Tod) : (s.setTod t o).cc = s.cc := rfl
@[simp] theorem State.setTod_vd (t : Track) (o : Tod) : (s.setTod t o).vd = s.vd := rfl

@[simp] theorem State.setCc_pending (c : Corner) (x : Cc) : (s.setCc c x).pending = s.pending := rfl
@[simp] theorem State.setCc_resetHeld (c : Corner) (x : Cc) : (s.setCc c x).resetHeld = s.resetHeld := rfl
@[simp] theorem State.setCc_lif (c : Corner) (x : Cc) : (s.setCc c x).lif = s.lif := rfl
@[simp] theorem State.setCc_cfs (c : Corner) (x : Cc) : (s.setCc c x).cfs = s.cfs := rfl
@[simp] theorem State.setCc_mdc (c : Corner) (x : Cc) : (s.setCc c x).mdc = s.mdc := rfl
@[simp] theorem State.setCc_tod (c : Corner) (x : Cc) : (s.setCc c x).tod = s.tod := rfl
@[simp] theorem State.setCc_pvs (c : Corner) (x : Cc) : (s.setCc c x).pvs = s.pvs := rfl
@[simp] theorem State.setCc_cc (c : Corner) (x : Cc) : (s.setCc c x).cc = s.cc.set c x := rfl
@[simp] theorem State.setCc_vd (c : Corner) (x : Cc) : (s.setCc c x).vd = s.vd := rfl

@[simp] theorem State.setVd_pending (c : Corner) (v : Vd) : (s.setVd c v).pending = s.pending := rfl
@[simp] theorem State.setVd_resetHeld (c : Corner) (v : Vd) : (s.setVd c v).resetHeld = s.resetHeld := rfl
@[simp] theorem State.setVd_lif (c : Corner) (v : Vd) : (s.setVd c v).lif = s.lif := rfl
@[simp] theorem State.setVd_cfs (c : Corner) (v : Vd) : (s.setVd c v).cfs = s.cfs := rfl
@[simp] theorem State.setVd_mdc (c : Corner) (v : Vd) : (s.setVd c v).mdc = s.mdc := rfl
@[simp] theorem State.setVd_tod (c : Corner) (v : Vd) : (s.setVd c v).tod = s.tod := rfl
@[simp] theorem State.setVd_pvs (c : Corner) (v : Vd) : (s.setVd c v).pvs = s.pvs := rfl
@[simp] theorem State.setVd_cc (c : Corner) (v : Vd) : (s.setVd c v).cc = s.cc := rfl
@[simp] theorem State.setVd_vd (c : Corner) (v : Vd) : (s.setVd c v).vd = s.vd.set c v := rfl

@[simp] theorem State.mapTod_pending (f : Track → Tod → Tod) : (s.mapTod f).pending = s.pending := rfl
@[simp] theorem State.mapTod_resetHeld (f : Track → Tod → Tod) : (s.mapTod f).resetHeld = s.resetHeld := rfl
@[simp] theorem State.mapTod_lif (f : Track → Tod → Tod) : (s.mapTod f).lif = s.lif := rfl
@[simp] theorem State.mapTod_cfs (f : Track → Tod → Tod) : (s.mapTod f).cfs = s.cfs := rfl
@[simp] theorem State.mapTod_mdc (f : Track → Tod → Tod) : (s.mapTod f).mdc = s.mdc := rfl
@[simp] theorem State.mapTod_tod (f : Track → Tod → Tod) : (s.mapTod f).tod = PerTrack.of fun t => f t (s.tod.get t) := rfl
@[simp] theorem State.mapTod_pvs (f : Track → Tod → Tod) : (s.mapTod f).pvs = s.pvs := rfl
@[simp] theorem State.mapTod_cc (f : Track → Tod → Tod) : (s.mapTod f).cc = s.cc := rfl
@[simp] theorem State.mapTod_vd (f : Track → Tod → Tod) : (s.mapTod f).vd = s.vd := rfl

@[simp] theorem State.mapCc_pending (f : Corner → Cc → Cc) : (s.mapCc f).pending = s.pending := rfl
@[simp] theorem State.mapCc_resetHeld (f : Corner → Cc → Cc) : (s.mapCc f).resetHeld = s.resetHeld := rfl
@[simp] theorem State.mapCc_lif (f : Corner → Cc → Cc) : (s.mapCc f).lif = s.lif := rfl
@[simp] theorem State.mapCc_cfs (f : Corner → Cc → Cc) : (s.mapCc f).cfs = s.cfs := rfl
@[simp] theorem State.mapCc_mdc (f : Corner → Cc → Cc) : (s.mapCc f).mdc = s.mdc := rfl
@[simp] theorem State.mapCc_tod (f : Corner → Cc → Cc) : (s.mapCc f).tod = s.tod := rfl
@[simp] theorem State.mapCc_pvs (f : Corner → Cc → Cc) : (s.mapCc f).pvs = s.pvs := rfl
@[simp] theorem State.mapCc_cc (f : Corner → Cc → Cc) : (s.mapCc f).cc = PerCorner.of fun c => f c (s.cc.get c) := rfl
@[simp] theorem State.mapCc_vd (f : Corner → Cc → Cc) : (s.mapCc f).vd = s.vd := rfl

@[simp] theorem State.mapVd_pending (f : Corner → Vd → Vd) : (s.mapVd f).pending = s.pending := rfl
@[simp] theorem State.mapVd_resetHeld (f : Corner → Vd → Vd) : (s.mapVd f).resetHeld = s.resetHeld := rfl
@[simp] theorem State.mapVd_lif (f : Corner → Vd → Vd) : (s.mapVd f).lif = s.lif := rfl
@[simp] theorem State.mapVd_cfs (f : Corner → Vd → Vd) : (s.mapVd f).cfs = s.cfs := rfl
@[simp] theorem State.mapVd_mdc (f : Corner → Vd → Vd) : (s.mapVd f).mdc = s.mdc := rfl
@[simp] theorem State.mapVd_tod (f : Corner → Vd → Vd) : (s.mapVd f).tod = s.tod := rfl
@[simp] theorem State.mapVd_pvs (f : Corner → Vd → Vd) : (s.mapVd f).pvs = s.pvs := rfl
@[simp] theorem State.mapVd_cc (f : Corner → Vd → Vd) : (s.mapVd f).cc = s.cc := rfl
@[simp] theorem State.mapVd_vd (f : Corner → Vd → Vd) : (s.mapVd f).vd = PerCorner.of fun c => f c (s.vd.get c) := rfl

/-! ## The guard of the reset input (R174) -/

@[simp] theorem State.unlessHeld_free {s : State} (h : s.resetHeld = false) (f : State → State) : s.unlessHeld f = f s := by
  simp [State.unlessHeld, h]

@[simp] theorem State.unlessHeld_held {s : State} (h : s.resetHeld = true) (f : State → State) : s.unlessHeld f = s := by
  simp [State.unlessHeld, h]

/-- What an event that may be held back leaves true: what held before, and what its effect leaves true. -/
theorem State.unlessHeld_induct {P : State → Prop} {f : State → State} {s : State} (held : P s)
    (free : s.resetHeld = false → P (f s)) : P (s.unlessHeld f) := by
  cases h : s.resetHeld with
  | true => rw [State.unlessHeld_held h]; exact held
  | false => rw [State.unlessHeld_free h]; exact free h

end Sys2Proof.Machine
end

