-- ==== Sys2Proof/Laws/Frames.lean ====
section
/-! SUPPORT. For each shared operation, the blocks of the part that it leaves unchanged (and what it leaves of the Mode
Controller's state where that is more than nothing): proofs about a step cite these and unfold no operation. -/

namespace Sys2Proof.Machine

/-- A part of the state that each step of a fold keeps is kept by the fold. -/
theorem foldl_keeps {α β : Type} {g : State → β} {f : State → α → State} (h : ∀ s a, g (f s a) = g s) (l : List α)
    (s : State) : g (l.foldl f s) = g s := by
  induction l generalizing s with
  | nil => rfl
  | cons a l ih => rw [List.foldl_cons, ih, h]

variable (s : State)

/-! ## Modes and the store (Ops, StoreOps) -/

@[simp] theorem State.makeModeReport_frame (cause : ModeCause) (previous : PartMode) :
    (s.makeModeReport cause previous).pending = s.pending ∧
      (s.makeModeReport cause previous).resetHeld = s.resetHeld ∧ (s.makeModeReport cause previous).lif = s.lif ∧
      (s.makeModeReport cause previous).cfs = s.cfs ∧ (s.makeModeReport cause previous).tod = s.tod ∧
      (s.makeModeReport cause previous).pvs = s.pvs ∧ (s.makeModeReport cause previous).cc = s.cc ∧
      (s.makeModeReport cause previous).vd = s.vd ∧ (s.makeModeReport cause previous).mdc.mode = s.mdc.mode ∧
      (s.makeModeReport cause previous).mdc.faultedCount = s.mdc.faultedCount ∧
      (s.makeModeReport cause previous).mdc.checkEnds = s.mdc.checkEnds := by
  simp only [State.makeModeReport]
  simp

/-! ## The profile switch (SwitchOps) -/

@[simp] theorem State.completeSwitch_frame :
    s.completeSwitch.pending = s.pending ∧ s.completeSwitch.resetHeld = s.resetHeld ∧ s.completeSwitch.lif = s.lif ∧
      s.completeSwitch.mdc = s.mdc ∧ s.completeSwitch.tod = s.tod ∧ s.completeSwitch.pvs = s.pvs ∧
      s.completeSwitch.cc = s.cc ∧ s.completeSwitch.vd = s.vd := by
  simp only [State.completeSwitch]
  (repeat' split) <;> simp

@[simp] theorem State.takePending_frame (c : Corner) :
    (s.takePending c).pending = s.pending ∧ (s.takePending c).resetHeld = s.resetHeld ∧
      (s.takePending c).lif = s.lif ∧ (s.takePending c).cfs = s.cfs ∧ (s.takePending c).mdc = s.mdc ∧
      (s.takePending c).tod = s.tod ∧ (s.takePending c).pvs = s.pvs ∧ (s.takePending c).vd = s.vd := by
  simp only [State.takePending]
  (repeat' split) <;> simp

@[simp] theorem State.switchCorner_frame (c : Corner) :
    (s.switchCorner c).pending = s.pending ∧ (s.switchCorner c).resetHeld = s.resetHeld ∧
      (s.switchCorner c).lif = s.lif ∧ (s.switchCorner c).mdc = s.mdc ∧ (s.switchCorner c).tod = s.tod ∧
      (s.switchCorner c).pvs = s.pvs ∧ (s.switchCorner c).vd = s.vd := by
  simp only [State.switchCorner]
  simp

@[simp] theorem State.driverLeft_frame (c : Corner) (former : DriverState) :
    (s.driverLeft c former).pending = s.pending ∧ (s.driverLeft c former).resetHeld = s.resetHeld ∧
      (s.driverLeft c former).lif = s.lif ∧ (s.driverLeft c former).mdc = s.mdc ∧
      (s.driverLeft c former).tod = s.tod ∧ (s.driverLeft c former).pvs = s.pvs ∧
      (s.driverLeft c former).vd = s.vd := by
  simp only [State.driverLeft]
  (repeat' split) <;> simp

@[simp] theorem State.boundaryTest_frame (c : Corner) :
    (s.boundaryTest c).pending = s.pending ∧ (s.boundaryTest c).resetHeld = s.resetHeld ∧
      (s.boundaryTest c).lif = s.lif ∧ (s.boundaryTest c).mdc = s.mdc ∧ (s.boundaryTest c).tod = s.tod ∧
      (s.boundaryTest c).pvs = s.pvs ∧ (s.boundaryTest c).vd = s.vd := by
  simp only [State.boundaryTest]
  (repeat' split) <;> simp

@[simp] theorem State.beginAtCorner_frame (c : Corner) :
    (s.beginAtCorner c).pending = s.pending ∧ (s.beginAtCorner c).resetHeld = s.resetHeld ∧
      (s.beginAtCorner c).lif = s.lif ∧ (s.beginAtCorner c).cfs = s.cfs ∧ (s.beginAtCorner c).mdc = s.mdc ∧
      (s.beginAtCorner c).tod = s.tod ∧ (s.beginAtCorner c).pvs = s.pvs ∧ (s.beginAtCorner c).vd = s.vd := by
  simp only [State.beginAtCorner]
  (repeat' split) <;> simp

@[simp] theorem State.beginSwitch_frame (p : ProfileName) :
    (s.beginSwitch p).pending = s.pending ∧ (s.beginSwitch p).resetHeld = s.resetHeld ∧
      (s.beginSwitch p).lif = s.lif ∧ (s.beginSwitch p).mdc = s.mdc ∧ (s.beginSwitch p).tod = s.tod ∧
      (s.beginSwitch p).pvs = s.pvs ∧ (s.beginSwitch p).vd = s.vd := by
  simp only [State.beginSwitch]
  simp [corners]

@[simp] theorem State.immediateSwitch_frame (p : ProfileName) :
    (s.immediateSwitch p).pending = s.pending ∧ (s.immediateSwitch p).resetHeld = s.resetHeld ∧
      (s.immediateSwitch p).lif = s.lif ∧ (s.immediateSwitch p).mdc = s.mdc ∧ (s.immediateSwitch p).tod = s.tod ∧
      (s.immediateSwitch p).pvs = s.pvs ∧ (s.immediateSwitch p).vd = s.vd := by
  simp only [State.immediateSwitch]
  simp

@[simp] theorem State.switchAtStandby_frame :
    s.switchAtStandby.pending = s.pending ∧ s.switchAtStandby.resetHeld = s.resetHeld ∧
      s.switchAtStandby.lif = s.lif ∧ s.switchAtStandby.mdc = s.mdc ∧ s.switchAtStandby.tod = s.tod ∧
      s.switchAtStandby.pvs = s.pvs ∧ s.switchAtStandby.vd = s.vd := by
  simp only [State.switchAtStandby, State.completeSwitch_frame]
  refine ⟨?_, ?_, ?_, ?_, ?_, ?_, ?_⟩ <;> (apply foldl_keeps; intro t c; split <;> simp)

/-! ## The drivers (DriverOps) -/

@[simp] theorem State.startTrimSchedule_frame (c : Corner) :
    (s.startTrimSchedule c).pending = s.pending ∧ (s.startTrimSchedule c).resetHeld = s.resetHeld ∧
      (s.startTrimSchedule c).lif = s.lif ∧ (s.startTrimSchedule c).cfs = s.cfs ∧
      (s.startTrimSchedule c).mdc = s.mdc ∧ (s.startTrimSchedule c).tod = s.tod ∧
      (s.startTrimSchedule c).pvs = s.pvs ∧ (s.startTrimSchedule c).cc = s.cc := by
  simp only [State.startTrimSchedule]
  simp

@[simp] theorem State.enterDriveAtFloor_frame (c : Corner) :
    (s.enterDriveAtFloor c).pending = s.pending ∧ (s.enterDriveAtFloor c).resetHeld = s.resetHeld ∧
      (s.enterDriveAtFloor c).lif = s.lif ∧ (s.enterDriveAtFloor c).cfs = s.cfs ∧
      (s.enterDriveAtFloor c).mdc = s.mdc ∧ (s.enterDriveAtFloor c).tod = s.tod ∧
      (s.enterDriveAtFloor c).pvs = s.pvs := by
  simp only [State.enterDriveAtFloor]
  simp

@[simp] theorem State.enterDriveKept_frame (c : Corner) :
    (s.enterDriveKept c).pending = s.pending ∧ (s.enterDriveKept c).resetHeld = s.resetHeld ∧
      (s.enterDriveKept c).lif = s.lif ∧ (s.enterDriveKept c).cfs = s.cfs ∧ (s.enterDriveKept c).mdc = s.mdc ∧
      (s.enterDriveKept c).tod = s.tod ∧ (s.enterDriveKept c).pvs = s.pvs ∧ (s.enterDriveKept c).cc = s.cc := by
  simp only [State.enterDriveKept]
  simp

@[simp] theorem State.enterHold_frame (c : Corner) :
    (s.enterHold c).pending = s.pending ∧ (s.enterHold c).resetHeld = s.resetHeld ∧ (s.enterHold c).lif = s.lif ∧
      (s.enterHold c).mdc = s.mdc ∧ (s.enterHold c).tod = s.tod ∧ (s.enterHold c).pvs = s.pvs := by
  simp only [State.enterHold]
  simp

@[simp] theorem State.startTrim_frame (c : Corner) (o : TrimOrigin) (k : TrimKind) :
    (s.startTrim c o k).pending = s.pending ∧ (s.startTrim c o k).resetHeld = s.resetHeld ∧
      (s.startTrim c o k).lif = s.lif ∧ (s.startTrim c o k).cfs = s.cfs ∧ (s.startTrim c o k).mdc = s.mdc ∧
      (s.startTrim c o k).tod = s.tod ∧ (s.startTrim c o k).pvs = s.pvs ∧ (s.startTrim c o k).cc = s.cc := by
  simp only [State.startTrim]
  simp

@[simp] theorem State.driveStartTest_frame (c : Corner) :
    (s.driveStartTest c).pending = s.pending ∧ (s.driveStartTest c).resetHeld = s.resetHeld ∧
      (s.driveStartTest c).lif = s.lif ∧ (s.driveStartTest c).cfs = s.cfs ∧ (s.driveStartTest c).mdc = s.mdc ∧
      (s.driveStartTest c).tod = s.tod ∧ (s.driveStartTest c).pvs = s.pvs ∧ (s.driveStartTest c).cc = s.cc := by
  simp only [State.driveStartTest]
  (repeat' split) <;> simp

@[simp] theorem State.holdStartTest_frame (c : Corner) :
    (s.holdStartTest c).pending = s.pending ∧ (s.holdStartTest c).resetHeld = s.resetHeld ∧
      (s.holdStartTest c).lif = s.lif ∧ (s.holdStartTest c).cfs = s.cfs ∧ (s.holdStartTest c).mdc = s.mdc ∧
      (s.holdStartTest c).tod = s.tod ∧ (s.holdStartTest c).pvs = s.pvs ∧ (s.holdStartTest c).cc = s.cc := by
  simp only [State.holdStartTest]
  (repeat' split) <;> simp

@[simp] theorem State.startTest_frame (c : Corner) :
    (s.startTest c).pending = s.pending ∧ (s.startTest c).resetHeld = s.resetHeld ∧ (s.startTest c).lif = s.lif ∧
      (s.startTest c).cfs = s.cfs ∧ (s.startTest c).mdc = s.mdc ∧ (s.startTest c).tod = s.tod ∧
      (s.startTest c).pvs = s.pvs ∧ (s.startTest c).cc = s.cc := by
  simp only [State.startTest]
  (repeat' split) <;> simp

@[simp] theorem State.expiryStartTest_frame (c : Corner) :
    (s.expiryStartTest c).pending = s.pending ∧ (s.expiryStartTest c).resetHeld = s.resetHeld ∧
      (s.expiryStartTest c).lif = s.lif ∧ (s.expiryStartTest c).cfs = s.cfs ∧ (s.expiryStartTest c).mdc = s.mdc ∧
      (s.expiryStartTest c).tod = s.tod ∧ (s.expiryStartTest c).pvs = s.pvs ∧ (s.expiryStartTest c).cc = s.cc := by
  simp only [State.expiryStartTest]
  (repeat' split) <;> simp

@[simp] theorem State.tellQuiet_frame (c : Corner) (quiet : Bool) :
    (s.tellQuiet c quiet).pending = s.pending ∧ (s.tellQuiet c quiet).resetHeld = s.resetHeld ∧
      (s.tellQuiet c quiet).lif = s.lif ∧ (s.tellQuiet c quiet).cfs = s.cfs ∧ (s.tellQuiet c quiet).mdc = s.mdc ∧
      (s.tellQuiet c quiet).tod = s.tod ∧ (s.tellQuiet c quiet).pvs = s.pvs ∧ (s.tellQuiet c quiet).cc = s.cc := by
  simp only [State.tellQuiet]
  simp

@[simp] theorem State.handToDriver_frame (c : Corner) (d : Nat) :
    (s.handToDriver c d).pending = s.pending ∧ (s.handToDriver c d).resetHeld = s.resetHeld ∧
      (s.handToDriver c d).lif = s.lif ∧ (s.handToDriver c d).cfs = s.cfs ∧ (s.handToDriver c d).mdc = s.mdc ∧
      (s.handToDriver c d).tod = s.tod ∧ (s.handToDriver c d).pvs = s.pvs ∧ (s.handToDriver c d).cc = s.cc := by
  simp only [State.handToDriver]
  (repeat' split) <;> simp

/-! ## What one event brings about across blocks (ModeOps) -/

@[simp] theorem State.loseLock_frame (t : Track) (cause : LockCause) :
    (s.loseLock t cause).pending = s.pending ∧ (s.loseLock t cause).resetHeld = s.resetHeld ∧
      (s.loseLock t cause).lif = s.lif ∧ (s.loseLock t cause).cfs = s.cfs ∧ (s.loseLock t cause).mdc = s.mdc ∧
      (s.loseLock t cause).cc = s.cc ∧ (s.loseLock t cause).vd = s.vd := by
  simp only [State.loseLock]
  simp

@[simp] theorem State.enterStarting_frame :
    s.enterStarting.pending = s.pending ∧ s.enterStarting.resetHeld = s.resetHeld ∧ s.enterStarting.lif = s.lif ∧
      s.enterStarting.cfs = s.cfs ∧ s.enterStarting.tod = s.tod ∧ s.enterStarting.pvs = s.pvs ∧
      s.enterStarting.mdc.mode = .starting ∧ s.enterStarting.mdc.faultedCount = s.mdc.faultedCount := by
  simp only [State.enterStarting]
  simp

@[simp] theorem State.armedToRun_frame (c : Corner) :
    (s.armedToRun c).pending = s.pending ∧ (s.armedToRun c).resetHeld = s.resetHeld ∧ (s.armedToRun c).lif = s.lif ∧
      (s.armedToRun c).mdc = s.mdc ∧ (s.armedToRun c).tod = s.tod ∧ (s.armedToRun c).pvs = s.pvs := by
  simp only [State.armedToRun]
  (repeat' split) <;> simp

@[simp] theorem State.enterRun_frame :
    s.enterRun.pending = s.pending ∧ s.enterRun.resetHeld = s.resetHeld ∧ s.enterRun.lif = s.lif ∧
      s.enterRun.tod = s.tod ∧ s.enterRun.mdc.mode = .run ∧ s.enterRun.mdc.faultedCount = s.mdc.faultedCount := by
  simp only [State.enterRun]
  simp [corners]

@[simp] theorem State.enterSafe_frame :
    s.enterSafe.pending = s.pending ∧ s.enterSafe.resetHeld = s.resetHeld ∧ s.enterSafe.lif = s.lif ∧
      s.enterSafe.cfs = s.cfs ∧ s.enterSafe.tod = s.tod ∧ s.enterSafe.mdc.mode = .safe ∧
      s.enterSafe.mdc.faultedCount = s.mdc.faultedCount := by
  simp only [State.enterSafe]
  simp

@[simp] theorem State.enterStandby_frame :
    s.enterStandby.pending = s.pending ∧ s.enterStandby.resetHeld = s.resetHeld ∧ s.enterStandby.lif = s.lif ∧
      s.enterStandby.mdc.mode = .standby ∧ s.enterStandby.mdc.faultedCount = 0 := by
  simp only [State.enterStandby]
  simp

@[simp] theorem State.noteCheckEnd_frame (c : Corner) (r : CheckResult) :
    (s.noteCheckEnd c r).pending = s.pending ∧ (s.noteCheckEnd c r).resetHeld = s.resetHeld ∧
      (s.noteCheckEnd c r).lif = s.lif ∧ (s.noteCheckEnd c r).cfs = s.cfs ∧ (s.noteCheckEnd c r).tod = s.tod ∧
      (s.noteCheckEnd c r).pvs = s.pvs ∧ (s.noteCheckEnd c r).cc = s.cc ∧ (s.noteCheckEnd c r).vd = s.vd ∧
      (s.noteCheckEnd c r).mdc.mode = s.mdc.mode ∧ (s.noteCheckEnd c r).mdc.faultedCount = s.mdc.faultedCount := by
  simp only [State.noteCheckEnd]
  simp

@[simp] theorem State.runIfChecked_frame :
    s.runIfChecked.pending = s.pending ∧ s.runIfChecked.resetHeld = s.resetHeld ∧ s.runIfChecked.lif = s.lif ∧
      s.runIfChecked.tod = s.tod ∧ s.runIfChecked.mdc.faultedCount = s.mdc.faultedCount := by
  simp only [State.runIfChecked]
  (repeat' split) <;> simp

@[simp] theorem State.tellFaulted_frame (c : Corner) (former : DriverState) :
    (s.tellFaulted c former).pending = s.pending ∧ (s.tellFaulted c former).resetHeld = s.resetHeld ∧
      (s.tellFaulted c former).lif = s.lif ∧ (s.tellFaulted c former).cfs = s.cfs ∧
      (s.tellFaulted c former).tod = s.tod ∧ (s.tellFaulted c former).pvs = s.pvs ∧
      (s.tellFaulted c former).cc = s.cc ∧ (s.tellFaulted c former).vd = s.vd ∧
      (s.tellFaulted c former).mdc.mode = s.mdc.mode ∧
      (s.tellFaulted c former).mdc.faultedCount = s.mdc.faultedCount + 1 := by
  simp only [State.tellFaulted]
  (repeat' split) <;> simp

@[simp] theorem State.escalate_frame :
    s.escalate.pending = s.pending ∧ s.escalate.resetHeld = s.resetHeld ∧ s.escalate.lif = s.lif ∧
      s.escalate.tod = s.tod ∧ s.escalate.mdc.faultedCount = s.mdc.faultedCount := by
  simp only [State.escalate]
  (repeat' split) <;> simp

@[simp] theorem State.enterFaulted_frame (c : Corner) (k : FaultKind) (m : Nat) :
    (s.enterFaulted c k m).pending = s.pending ∧ (s.enterFaulted c k m).resetHeld = s.resetHeld ∧
      (s.enterFaulted c k m).lif = s.lif ∧ (s.enterFaulted c k m).tod = s.tod ∧
      (s.enterFaulted c k m).mdc.faultedCount = s.mdc.faultedCount + 1 := by
  simp only [State.enterFaulted]
  simp

@[simp] theorem State.applyRestart_frame :
    s.applyRestart.pending = s.pending ∧ s.applyRestart.resetHeld = s.resetHeld ∧ s.applyRestart.lif = s.lif := by
  simp only [State.applyRestart]
  simp

/-! ## The Link Interface (LinkOps) -/

@[simp] theorem State.place_frame (r : Record) :
    (s.place r).pending = s.pending ∧ (s.place r).resetHeld = s.resetHeld ∧ (s.place r).cfs = s.cfs ∧
      (s.place r).mdc = s.mdc ∧ (s.place r).tod = s.tod ∧ (s.place r).pvs = s.pvs ∧ (s.place r).cc = s.cc ∧
      (s.place r).vd = s.vd := by
  simp only [State.place]
  simp

@[simp] theorem State.endExchange_frame (o : FrameOutcome) :
    (s.endExchange o).pending = s.pending ∧ (s.endExchange o).resetHeld = s.resetHeld ∧
      (s.endExchange o).cfs = s.cfs ∧ (s.endExchange o).mdc = s.mdc ∧ (s.endExchange o).tod = s.tod ∧
      (s.endExchange o).pvs = s.pvs ∧ (s.endExchange o).cc = s.cc ∧ (s.endExchange o).vd = s.vd := by
  simp only [State.endExchange]
  simp

@[simp] theorem State.arriveAtStore_frame :
    s.arriveAtStore.pending = s.pending ∧ s.arriveAtStore.resetHeld = s.resetHeld ∧ s.arriveAtStore.lif = s.lif ∧
      s.arriveAtStore.cfs = s.cfs ∧ s.arriveAtStore.tod = s.tod ∧ s.arriveAtStore.cc = s.cc ∧
      s.arriveAtStore.vd = s.vd ∧ s.arriveAtStore.mdc.mode = s.mdc.mode ∧
      s.arriveAtStore.mdc.faultedCount = s.mdc.faultedCount ∧ s.arriveAtStore.pvs.lists = s.pvs.lists ∧
      s.arriveAtStore.mdc.checkEnds = s.mdc.checkEnds := by
  simp only [State.arriveAtStore]
  (repeat' split) <;> simp

@[simp] theorem State.frameArrives_frame :
    s.frameArrives.pending = s.pending ∧ s.frameArrives.resetHeld = s.resetHeld ∧ s.frameArrives.cfs = s.cfs ∧
      s.frameArrives.tod = s.tod ∧ s.frameArrives.cc = s.cc ∧ s.frameArrives.vd = s.vd ∧
      s.frameArrives.mdc.mode = s.mdc.mode ∧ s.frameArrives.mdc.faultedCount = s.mdc.faultedCount ∧
      s.frameArrives.pvs.lists = s.pvs.lists ∧ s.frameArrives.mdc.checkEnds = s.mdc.checkEnds ∧
      s.frameArrives.lif = { s.lif with silence := s.silenceRestarted } := by
  simp only [State.frameArrives]
  simp

@[simp] theorem State.refuseFrame_frame (o : FrameOutcome) :
    (s.refuseFrame o).pending = s.pending ∧ (s.refuseFrame o).resetHeld = s.resetHeld ∧
      (s.refuseFrame o).cfs = s.cfs ∧ (s.refuseFrame o).mdc = s.mdc ∧ (s.refuseFrame o).tod = s.tod ∧
      (s.refuseFrame o).pvs = s.pvs ∧ (s.refuseFrame o).cc = s.cc ∧ (s.refuseFrame o).vd = s.vd := by
  simp only [State.refuseFrame]
  simp

/-! ## Odometry -/

@[simp] theorem State.giveDirection_frame (d : Direction) (t : Track) :
    (s.giveDirection d t).pending = s.pending ∧ (s.giveDirection d t).resetHeld = s.resetHeld ∧
      (s.giveDirection d t).lif = s.lif ∧ (s.giveDirection d t).cfs = s.cfs ∧ (s.giveDirection d t).mdc = s.mdc ∧
      (s.giveDirection d t).cc = s.cc ∧ (s.giveDirection d t).vd = s.vd := by
  simp only [State.giveDirection]
  (repeat' split) <;> simp

@[simp] theorem State.giveMiss_frame (c : Corner) (given : Bool) :
    (s.giveMiss c given).pending = s.pending ∧ (s.giveMiss c given).resetHeld = s.resetHeld ∧
      (s.giveMiss c given).lif = s.lif ∧ (s.giveMiss c given).cfs = s.cfs ∧ (s.giveMiss c given).mdc = s.mdc ∧
      (s.giveMiss c given).tod = s.tod ∧ (s.giveMiss c given).pvs = s.pvs ∧ (s.giveMiss c given).vd = s.vd := by
  simp only [State.giveMiss]
  (repeat' split) <;> simp

@[simp] theorem State.handAdvance_frame (t : Track) :
    (s.handAdvance t).pending = s.pending ∧ (s.handAdvance t).resetHeld = s.resetHeld ∧
      (s.handAdvance t).lif = s.lif ∧ (s.handAdvance t).cfs = s.cfs ∧ (s.handAdvance t).mdc = s.mdc ∧
      (s.handAdvance t).tod = s.tod ∧ (s.handAdvance t).vd = s.vd := by
  simp only [State.handAdvance]
  simp

@[simp] theorem State.evaluateLock_frame (t : Track) (r : Option Nat) :
    (s.evaluateLock t r).pending = s.pending ∧ (s.evaluateLock t r).resetHeld = s.resetHeld ∧
      (s.evaluateLock t r).lif = s.lif ∧ (s.evaluateLock t r).cfs = s.cfs ∧ (s.evaluateLock t r).mdc = s.mdc ∧
      (s.evaluateLock t r).cc = s.cc ∧ (s.evaluateLock t r).vd = s.vd := by
  simp only [State.evaluateLock]
  (repeat' split) <;> simp

@[simp] theorem State.takeFrontPulse_frame (t : Track) (time : Nat) :
    (s.takeFrontPulse t time).pending = s.pending ∧ (s.takeFrontPulse t time).resetHeld = s.resetHeld ∧
      (s.takeFrontPulse t time).lif = s.lif ∧ (s.takeFrontPulse t time).cfs = s.cfs ∧
      (s.takeFrontPulse t time).mdc = s.mdc ∧ (s.takeFrontPulse t time).vd = s.vd := by
  simp only [State.takeFrontPulse]
  (repeat' split) <;> simp

@[simp] theorem State.takeRearPulse_frame (t : Track) :
    (s.takeRearPulse t).pending = s.pending ∧ (s.takeRearPulse t).resetHeld = s.resetHeld ∧
      (s.takeRearPulse t).lif = s.lif ∧ (s.takeRearPulse t).cfs = s.cfs ∧ (s.takeRearPulse t).mdc = s.mdc ∧
      (s.takeRearPulse t).cc = s.cc ∧ (s.takeRearPulse t).vd = s.vd := by
  simp only [State.takeRearPulse]
  (repeat' split) <;> simp

/-! ## Corner control -/

@[simp] theorem State.bookkeep_frame (c : Corner) (u : UpdateSet) (x : UpdateTrace) :
    (s.bookkeep c u x).pending = s.pending ∧ (s.bookkeep c u x).resetHeld = s.resetHeld ∧
      (s.bookkeep c u x).lif = s.lif ∧ (s.bookkeep c u x).cfs = s.cfs ∧ (s.bookkeep c u x).mdc = s.mdc ∧
      (s.bookkeep c u x).tod = s.tod ∧ (s.bookkeep c u x).pvs = s.pvs ∧ (s.bookkeep c u x).vd = s.vd := by
  simp only [State.bookkeep]
  simp

@[simp] theorem State.updateOutsideRun_frame (c : Corner) :
    (s.updateOutsideRun c).pending = s.pending ∧ (s.updateOutsideRun c).resetHeld = s.resetHeld ∧
      (s.updateOutsideRun c).lif = s.lif ∧ (s.updateOutsideRun c).cfs = s.cfs ∧ (s.updateOutsideRun c).mdc = s.mdc ∧
      (s.updateOutsideRun c).tod = s.tod ∧ (s.updateOutsideRun c).pvs = s.pvs := by
  simp only [State.updateOutsideRun]
  simp

@[simp] theorem State.updateSensor_frame (c : Corner) (raw : Int) :
    (s.updateSensor c raw).pending = s.pending ∧ (s.updateSensor c raw).resetHeld = s.resetHeld ∧
      (s.updateSensor c raw).lif = s.lif ∧ (s.updateSensor c raw).mdc = s.mdc ∧ (s.updateSensor c raw).tod = s.tod ∧
      (s.updateSensor c raw).pvs = s.pvs ∧ (s.updateSensor c raw).vd = s.vd := by
  simp only [State.updateSensor]
  simp

@[simp] theorem State.handOver_frame (c : Corner) (x : Option Slot) (d : Demand) :
    (s.handOver c x d).pending = s.pending ∧ (s.handOver c x d).resetHeld = s.resetHeld ∧
      (s.handOver c x d).lif = s.lif ∧ (s.handOver c x d).cfs = s.cfs ∧ (s.handOver c x d).mdc = s.mdc ∧
      (s.handOver c x d).tod = s.tod := by
  simp only [State.handOver]
  (repeat' split) <;> simp

@[simp] theorem State.updateInRun_frame (c : Corner) (raw : Int) :
    (s.updateInRun c raw).pending = s.pending ∧ (s.updateInRun c raw).resetHeld = s.resetHeld ∧
      (s.updateInRun c raw).lif = s.lif ∧ (s.updateInRun c raw).mdc = s.mdc ∧ (s.updateInRun c raw).tod = s.tod := by
  simp only [State.updateInRun]
  (repeat' split) <;> simp

/-! ## Drivers -/

@[simp] theorem State.pullAhead_frame (c : Corner) (n : Nat) :
    (s.pullAhead c n).pending = s.pending ∧ (s.pullAhead c n).resetHeld = s.resetHeld ∧
      (s.pullAhead c n).lif = s.lif ∧ (s.pullAhead c n).cfs = s.cfs ∧ (s.pullAhead c n).mdc = s.mdc ∧
      (s.pullAhead c n).tod = s.tod ∧ (s.pullAhead c n).pvs = s.pvs ∧ (s.pullAhead c n).cc = s.cc := by
  simp only [State.pullAhead]
  simp

@[simp] theorem State.recheck_frame (c : Corner) :
    (s.recheck c).pending = s.pending ∧ (s.recheck c).resetHeld = s.resetHeld ∧ (s.recheck c).lif = s.lif ∧
      (s.recheck c).cfs = s.cfs ∧ (s.recheck c).tod = s.tod ∧ (s.recheck c).pvs = s.pvs ∧ (s.recheck c).cc = s.cc ∧
      (s.recheck c).mdc.mode = s.mdc.mode ∧ (s.recheck c).mdc.faultedCount = s.mdc.faultedCount - 1 := by
  simp only [State.recheck]
  simp

@[simp] theorem State.sample_frame (c : Corner) (n : Nat) :
    (s.sample c n).pending = s.pending ∧ (s.sample c n).resetHeld = s.resetHeld ∧ (s.sample c n).lif = s.lif ∧
      (s.sample c n).tod = s.tod := by
  simp only [State.sample]
  (repeat' split) <;> simp

@[simp] theorem State.trackingExpires_frame (c : Corner) :
    (s.trackingExpires c).pending = s.pending ∧ (s.trackingExpires c).resetHeld = s.resetHeld ∧
      (s.trackingExpires c).lif = s.lif ∧ (s.trackingExpires c).tod = s.tod := by
  simp only [State.trackingExpires]
  (repeat' split) <;> simp

@[simp] theorem State.setEstimates_frame (c : Corner) (r : Nat) :
    (s.setEstimates c r).pending = s.pending ∧ (s.setEstimates c r).resetHeld = s.resetHeld ∧
      (s.setEstimates c r).lif = s.lif ∧ (s.setEstimates c r).cfs = s.cfs ∧ (s.setEstimates c r).mdc = s.mdc ∧
      (s.setEstimates c r).tod = s.tod ∧ (s.setEstimates c r).pvs = s.pvs ∧ (s.setEstimates c r).cc = s.cc := by
  simp only [State.setEstimates]
  simp

@[simp] theorem State.armed_frame (c : Corner) :
    (s.armed c).pending = s.pending ∧ (s.armed c).resetHeld = s.resetHeld ∧ (s.armed c).lif = s.lif ∧
      (s.armed c).tod = s.tod ∧ (s.armed c).mdc.faultedCount = s.mdc.faultedCount := by
  simp only [State.armed]
  simp

@[simp] theorem State.rechecked_frame (c : Corner) :
    (s.rechecked c).pending = s.pending ∧ (s.rechecked c).resetHeld = s.resetHeld ∧ (s.rechecked c).lif = s.lif ∧
      (s.rechecked c).mdc = s.mdc ∧ (s.rechecked c).tod = s.tod ∧ (s.rechecked c).pvs = s.pvs := by
  simp only [State.rechecked]
  (repeat' split) <;> simp

@[simp] theorem State.checkPassed_frame (c : Corner) (r : Nat) :
    (s.checkPassed c r).pending = s.pending ∧ (s.checkPassed c r).resetHeld = s.resetHeld ∧
      (s.checkPassed c r).lif = s.lif ∧ (s.checkPassed c r).tod = s.tod ∧
      (s.checkPassed c r).mdc.faultedCount = s.mdc.faultedCount := by
  simp only [State.checkPassed]
  (repeat' split) <;> simp

@[simp] theorem State.checkCompletes_frame (c : Corner) (r : Nat) :
    (s.checkCompletes c r).pending = s.pending ∧ (s.checkCompletes c r).resetHeld = s.resetHeld ∧
      (s.checkCompletes c r).lif = s.lif ∧ (s.checkCompletes c r).tod = s.tod := by
  simp only [State.checkCompletes]
  (repeat' split) <;> simp

@[simp] theorem State.leaveTrim_frame (c : Corner) (o : TrimOrigin) :
    (s.leaveTrim c o).pending = s.pending ∧ (s.leaveTrim c o).resetHeld = s.resetHeld ∧
      (s.leaveTrim c o).lif = s.lif ∧ (s.leaveTrim c o).mdc = s.mdc ∧ (s.leaveTrim c o).tod = s.tod ∧
      (s.leaveTrim c o).pvs = s.pvs := by
  simp only [State.leaveTrim]
  (repeat' split) <;> simp

@[simp] theorem State.trimPassed_frame (c : Corner) (t : Trim) (r : Nat) :
    (s.trimPassed c t r).pending = s.pending ∧ (s.trimPassed c t r).resetHeld = s.resetHeld ∧
      (s.trimPassed c t r).lif = s.lif ∧ (s.trimPassed c t r).mdc = s.mdc ∧ (s.trimPassed c t r).tod = s.tod ∧
      (s.trimPassed c t r).pvs = s.pvs := by
  simp only [State.trimPassed]
  simp

@[simp] theorem State.trimCompletes_frame (c : Corner) (t : Trim) (r : Nat) :
    (s.trimCompletes c t r).pending = s.pending ∧ (s.trimCompletes c t r).resetHeld = s.resetHeld ∧
      (s.trimCompletes c t r).lif = s.lif ∧ (s.trimCompletes c t r).tod = s.tod := by
  simp only [State.trimCompletes]
  (repeat' split) <;> simp

@[simp] theorem State.trimTimerExpires_frame (c : Corner) :
    (s.trimTimerExpires c).pending = s.pending ∧ (s.trimTimerExpires c).resetHeld = s.resetHeld ∧
      (s.trimTimerExpires c).lif = s.lif ∧ (s.trimTimerExpires c).cfs = s.cfs ∧ (s.trimTimerExpires c).mdc = s.mdc ∧
      (s.trimTimerExpires c).tod = s.tod ∧ (s.trimTimerExpires c).pvs = s.pvs ∧ (s.trimTimerExpires c).cc = s.cc := by
  simp only [State.trimTimerExpires]
  simp

/-! ## The link's own events -/

@[simp] theorem State.removeCarried_frame (x : Exchange) (n : Nat) :
    (s.removeCarried x n).pending = s.pending ∧ (s.removeCarried x n).resetHeld = s.resetHeld ∧
      (s.removeCarried x n).cfs = s.cfs ∧ (s.removeCarried x n).mdc = s.mdc ∧ (s.removeCarried x n).tod = s.tod ∧
      (s.removeCarried x n).pvs = s.pvs ∧ (s.removeCarried x n).cc = s.cc ∧ (s.removeCarried x n).vd = s.vd := by
  simp only [State.removeCarried]
  (repeat' split) <;> simp

@[simp] theorem State.silenceAtStore_frame :
    s.silenceAtStore.pending = s.pending ∧ s.silenceAtStore.resetHeld = s.resetHeld ∧ s.silenceAtStore.lif = s.lif ∧
      s.silenceAtStore.cfs = s.cfs ∧ s.silenceAtStore.tod = s.tod ∧ s.silenceAtStore.cc = s.cc ∧
      s.silenceAtStore.vd = s.vd ∧ s.silenceAtStore.mdc.mode = s.mdc.mode ∧
      s.silenceAtStore.mdc.faultedCount = s.mdc.faultedCount := by
  simp only [State.silenceAtStore]
  (repeat' split) <;> simp

@[simp] theorem State.emptyMarker_frame (m : Marker) :
    (s.emptyMarker m).pending = s.pending ∧ (s.emptyMarker m).resetHeld = s.resetHeld ∧
      (s.emptyMarker m).lif = s.lif ∧ (s.emptyMarker m).mdc.mode = s.mdc.mode ∧
      (s.emptyMarker m).mdc.faultedCount = s.mdc.faultedCount := by
  simp only [State.emptyMarker]
  (repeat' split) <;> simp

end Sys2Proof.Machine
end

