-- ==== Sys2Proof/Laws/Keeps.lean ====
section
/-! SUPPORT. What it takes for a property of the state to be kept by every command: it is kept by each of the changes that
the commands are made of. A property of the blocks (not of the link, of the queue of commands or of the reset input) is
proved an invariant of every step by one `Keeps`; what the commands of `A` leave true, by one
`KeepsIn A`. -/

namespace Sys2Proof.Machine

/-- A property is kept by each change that a command of `A` can make to the blocks. -/
structure KeepsIn (A : Instr → Prop) (P : State → Prop) : Prop where
  outer : ∀ s l p h, P s → P { s with lif := l, pending := p, resetHeld := h }
  resumes : ∀ s, P s → s.mdc.mode = .run → s.pvs.preview = .suspended →
    P ((s.setPvs { s.pvs with preview := .active }).makeModeReport .previewResumed s.mdc.mode)
  setGroup : ∀ n b, A (.setGroup n b) → ∀ s g contents, P s → groupOf n = some g → s.setGroupFinding g = .ok →
    s.readContents g b = some contents → P (s.setCfs (s.cfs.store g contents))
  setLocks : ∀ b, A (.setLocks b) → ∀ s locks, P s → P (s.setCfs { s.cfs with locks })
  writeVariant : ∀ code m, A (.writeVariant code m) → ∀ s, P s → s.variantFinding m.toNat = .ok →
    P (s.setCfs (s.cfs.writeVariant code m.toNat))
  start : A .start → ∀ s, P s → s.startFinding = .ok → P s.enterStarting
  standby : A .standby → ∀ s, P s → s.mdc.mode.counting = true → P s.enterStandby
  restart : A .restart → ∀ s, P s → P s.applyRestart
  motion : ∀ b, A (.motion b) → ∀ s d t, P s → P (s.giveDirection d t)
  preview : ∀ r, A (.preview r) → ∀ s g evicted, P s → s.judgeRecord r = .accepted g evicted →
    P (s.setPvs (s.pvs.accept g evicted))
  withdraw : ∀ tag, A (.withdraw tag) → ∀ s x, P s → x ∈ s.pvs.held → x.state.committed = false →
    P (s.setPvs (s.pvs.release x.serial))
  select : ∀ b, A (.selectProfile b) → ∀ s p, P s → s.mdc.mode ≠ .safe → s.cfs.pendingProfile = none →
    p ≠ s.cfs.active → P (s.acceptSwitch p)
  trimAhead : ∀ b count, A (.trimAhead b count) → ∀ s c, P s → s.mdc.mode = .run → s.trimAheadFinding c count = .ok →
    P (s.pullAhead c count.toNat)
  recheck : ∀ b, A (.recheck b) → ∀ s c, P s → s.mdc.mode = .run → s.recheckFinding c = .ok → P (s.recheck c)
  setReporting : ∀ b n, A (.setReporting b n) → ∀ s c enabled, P s → P (s.setCc c ((s.cc.get c).report enabled))
  clear : ∀ b n, A (.clearConditions b n) → ∀ s c named, P s → P (s.setCc c ((s.cc.get c).clear named))
  fullReset : ∀ cause, A (.fullReset cause) → ∀ (s : State) held, P (s.applyFullReset held)
  frontPulse : ∀ t time, A (.frontPulseArrival t time) → ∀ s, P s → s.mdc.mode.counting = true →
    P (s.takeFrontPulse t time)
  rearPulse : ∀ t, A (.rearPulseArrival t) → ∀ s, P s → s.mdc.mode.counting = true → P (s.takeRearPulse t)
  standstill : ∀ t, A (.standstill t) → ∀ s, P s → (s.tod.get t).standstill ≠ .stopped →
    P (s.setTod t (s.tod.get t).stood)
  updateInRun : ∀ c raw, A (.update c raw) → ∀ s, P s → s.mdc.mode = .run → P (s.updateInRun c raw)
  updateOutsideRun : ∀ c raw, A (.update c raw) → ∀ s, P s → s.mdc.mode ≠ .run → P (s.updateOutsideRun c)
  sample : ∀ c n, A (.currentSample c n) → ∀ s, P s → P (s.sample c n)
  trackingExpires : ∀ c, A (.trackingTimerExpiry c) → ∀ s, P s → P (s.trackingExpires c)
  checkCompletes : ∀ c r, A (.checkCompletion c r) → ∀ s, P s → (s.vd.get c).state = .checking →
    P (s.checkCompletes c r)
  trimCompletes : ∀ c r, A (.trimCompletion c r) → ∀ s t, P s → (s.vd.get c).state = .trim →
    (s.vd.get c).trim = some t → P (s.trimCompletes c t r)
  trimTimerExpires : ∀ c, A (.trimTimerExpiry c) → ∀ s, P s → (s.vd.get c).trimTimer ≠ .stopped →
    P (s.trimTimerExpires c)
  silence : A .silenceExpiry → ∀ s, P s → s.mdc.mode = .run → s.pvs.preview = .active →
    P ((s.setPvs { s.pvs.silenceFlush with preview := .suspended }).makeModeReport .previewSuspended s.mdc.mode)
  emptyMarker : A .admission → ∀ s m, P s → P (s.emptyMarker m)

/-- A property is kept by each change that any command can make to the blocks. -/
abbrev Keeps (P : State → Prop) : Prop := KeepsIn (fun _ => True) P

namespace KeepsIn

variable {A : Instr → Prop} {P : State → Prop} (k : KeepsIn A P)

include k

theorem setLif (s : State) (l : Lif) (h : P s) : P (s.setLif l) := k.outer s l s.pending s.resetHeld h

theorem place (s : State) (r : Record) (h : P s) : P (s.place r) := k.setLif s _ h

theorem frameArrives (s : State) (h : P s) : P s.frameArrives := by
  unfold State.frameArrives State.arriveAtStore
  split
  · rename_i c
    exact k.resumes _ (k.setLif s _ h) c.1 c.2
  · exact k.setLif s _ h

theorem delivered (s : State) (h : P s) : P s.delivered := k.frameArrives _ (k.setLif s _ h)

theorem takeRequest {s : State} {judge : State → State × Reply} (h : P s) (j : ∀ t, P t → P (judge t).1) :
    P (s.takeRequest judge) := by
  unfold State.takeRequest
  apply State.unlessHeld_induct h
  intro _
  split
  · exact k.frameArrives _ (k.setLif s _ h)
  · exact k.place _ _ (j _ (k.delivered s h))

theorem takeRequestOfLength {s : State} {r : RequestKind} {n : Nat} {judge : State → State × Reply} (h : P s)
    (j : ∀ t, P t → P (judge t).1) : P (s.takeRequestOfLength r n judge) := by
  unfold State.takeRequestOfLength
  split
  · exact k.takeRequest h j
  · exact State.unlessHeld_induct h fun _ => k.setLif s _ h

theorem admitReports (a : A .admission) (n : Nat) (s : State) (h : P s) : P (s.admitReports n) := by
  induction n generalizing s with
  | zero => exact h
  | succ n ih =>
    unfold State.admitReports
    split
    · split
      · exact h
      · exact ih _ (k.place _ _ (k.emptyMarker a s _ h))
    · exact h

/-! ### The requests -/

theorem takeIdentify {s : State} (h : P s) : P (takeIdentify s) := k.takeRequest h fun _ h => h

theorem takeStatus {s : State} (h : P s) : P (takeStatus s) := k.takeRequest h fun _ h => h

theorem takeSetGroup {s : State} {g : Byte} {b : List Byte} (a : A (.setGroup g b)) (h : P s) : P (takeSetGroup g b s) := by
  refine k.takeRequestOfLength h fun t h => ?_
  unfold judgeSetGroup
  split
  · exact h
  · rename_i c0
    unfold State.setGroup
    split
    · rename_i c1 c2
      exact k.setGroup _ _ a _ _ _ h c0 c1 c2
    · exact h
    · exact h

theorem takeReadGroup {s : State} (g : Byte) (h : P s) : P (takeReadGroup g s) := by
  refine k.takeRequest h fun t h => ?_
  unfold judgeReadGroup
  split <;> exact h

theorem takeSetLocks {s : State} {b : Byte} (a : A (.setLocks b)) (h : P s) : P (takeSetLocks b s) := by
  refine k.takeRequest h fun t h => ?_
  unfold judgeSetLocks
  split
  · exact h
  · split
    · exact h
    · exact k.setLocks _ a _ _ h

theorem takeWriteVariant {s : State} {c : BitVec 64} {m : Half} (a : A (.writeVariant c m)) (h : P s) : P (takeWriteVariant c m s) := by
  refine k.takeRequest h fun t h => ?_
  unfold judgeWriteVariant
  split
  · rename_i c
    exact k.writeVariant _ _ a _ h c
  · exact h

theorem takeStart {s : State} (a : A .start) (h : P s) : P (takeStart s) := by
  refine k.takeRequest h fun t h => ?_
  unfold judgeStart
  split
  · rename_i c
    exact k.start a _ h c
  · exact h
  · exact h

theorem takeStandby {s : State} (a : A .standby) (h : P s) : P (takeStandby s) := by
  refine k.takeRequest h fun t h => ?_
  unfold judgeStandby
  split
  · exact h
  · exact h
  all_goals
    rename_i c
    exact k.standby a _ h (by rw [c]; rfl)

theorem takeRestart {s : State} (a : A .restart) (h : P s) : P (takeRestart s) :=
  State.unlessHeld_induct h fun _ => k.setLif _ _ (k.restart a _ (k.delivered s h))

theorem takeMotion {s : State} {b : Byte} (a : A (.motion b)) (h : P s) : P (takeMotion b s) := by
  refine k.takeRequest h fun t h => ?_
  unfold judgeMotion
  split
  · exact h
  · exact k.motion _ a _ _ _ (k.motion _ a _ _ _ h)

theorem takePreview {s : State} {r : SegmentRecord} (a : A (.preview r)) (h : P s) : P (takePreview r s) := by
  refine k.takeRequestOfLength h fun t h => ?_
  unfold judgePreview
  split
  · exact h
  · rename_i c
    exact k.preview _ a _ _ _ h c

theorem takeWithdraw {s : State} {tag : Half} (a : A (.withdraw tag)) (h : P s) : P (takeWithdraw tag s) := by
  refine k.takeRequest h fun t h => ?_
  unfold judgeWithdraw
  split
  · exact h
  · split
    · exact h
    · rename_i c
      split
      · exact h
      · rename_i d
        exact k.withdraw _ a _ _ h (List.mem_of_find?_eq_some c) (by simpa using d)

theorem takeSelectProfile {s : State} {b : Byte} (a : A (.selectProfile b)) (h : P s) : P (takeSelectProfile b s) := by
  refine k.takeRequest h fun t h => ?_
  unfold judgeSelectProfile
  split
  · exact h
  · rename_i c1
    split
    · exact h
    · split
      · split <;> exact h
      · rename_i c2
        split
        · exact h
        · rename_i c3
          exact k.select _ a _ _ h c1 c2 c3

theorem takeTrimAhead {s : State} {b n : Byte} (a : A (.trimAhead b n)) (h : P s) : P (takeTrimAhead b n s) := by
  refine k.takeRequest h fun t h => ?_
  unfold judgeTrimAhead
  split
  · exact h
  · split
    · exact h
    · rename_i c1
      split
      · rename_i c2
        exact k.trimAhead _ _ a _ _ h (by simpa using c1) c2
      · exact h

theorem takeRecheck {s : State} {b : Byte} (a : A (.recheck b)) (h : P s) : P (takeRecheck b s) := by
  refine k.takeRequest h fun t h => ?_
  unfold judgeRecheck
  split
  · exact h
  · split
    · exact h
    · rename_i c1
      split
      · rename_i c2
        exact k.recheck _ a _ _ h (by simpa using c1) c2
      · exact h

theorem takeSetReporting {s : State} {b n : Byte} (a : A (.setReporting b n)) (h : P s) : P (takeSetReporting b n s) := by
  refine k.takeRequest h fun t h => ?_
  unfold judgeSetReporting
  split
  · exact h
  · split
    · exact h
    · exact k.setReporting _ _ a _ _ _ h

theorem takeClearConditions {s : State} {b n : Byte} (a : A (.clearConditions b n)) (h : P s) : P (takeClearConditions b n s) := by
  refine k.takeRequest h fun t h => ?_
  unfold judgeClearConditions
  split
  · exact h
  · split
    · exact h
    · exact k.clear _ _ a _ _ _ h

theorem takeReadOrigin {s : State} (b : Byte) (h : P s) : P (takeReadOrigin b s) := by
  refine k.takeRequest h fun t h => ?_
  unfold judgeReadOrigin
  split <;> exact h

theorem takeFetch {s : State} (b : List Byte) (h : P s) : P (takeFetch b s) := by
  refine State.unlessHeld_induct h fun _ => ?_
  split
  · unfold State.removeCarried
    split
    · exact k.setLif _ _ (k.delivered s h)
    · exact k.delivered s h
  · exact k.setLif _ _ h

theorem runRequest {s : State} {i : Instr} (a : A i) (h : P s) : P (runRequest i s) := by
  cases i with
  | identify => exact k.takeIdentify h
  | setGroup g b => exact k.takeSetGroup a h
  | readGroup g => exact k.takeReadGroup g h
  | setLocks b => exact k.takeSetLocks a h
  | writeVariant c m => exact k.takeWriteVariant a h
  | start => exact k.takeStart a h
  | standby => exact k.takeStandby a h
  | restart => exact k.takeRestart a h
  | motion b => exact k.takeMotion a h
  | preview r => exact k.takePreview a h
  | withdraw tag => exact k.takeWithdraw a h
  | selectProfile b => exact k.takeSelectProfile a h
  | trimAhead b n => exact k.takeTrimAhead a h
  | recheck b => exact k.takeRecheck a h
  | setReporting b n => exact k.takeSetReporting a h
  | clearConditions b n => exact k.takeClearConditions a h
  | readOrigin b => exact k.takeReadOrigin b h
  | status => exact k.takeStatus h
  | fetch b => exact k.takeFetch b h
  | _ => exact h

theorem takeFrame {s : State} {f : RawFrame} (a : ∀ r, judgeFrame f = .wellFormed r → A r) (h : P s) :
    P (takeFrame f s) := by
  refine State.unlessHeld_induct h fun _ => ?_
  split
  · exact k.setLif _ _ h
  · exact k.setLif _ _ h
  · rename_i r c
    exact k.runRequest (a r c) h

/-! ### Every command -/

/-- A property kept by each change that a command can make is kept by that command. -/
theorem exec {i : Instr} {s t : State} (a : A (takenAs i)) (h : P s) (e : exec i s = .next t) : P t := by
  cases i <;> (injection e with e; subst e)
  case selectAssertion => exact State.unlessHeld_induct h fun _ => k.setLif _ _ h
  case malformedFrame f => exact k.takeFrame (fun r c => by simpa [takenAs, c] using a) h
  case noRoom f => exact k.takeFrame (fun r c => by simpa [takenAs, c] using a) h
  case identify => exact k.takeIdentify h
  case setGroup g b => exact k.takeSetGroup a h
  case readGroup g => exact k.takeReadGroup g h
  case setLocks b => exact k.takeSetLocks a h
  case writeVariant c m => exact k.takeWriteVariant a h
  case start => exact k.takeStart a h
  case standby => exact k.takeStandby a h
  case restart => exact k.takeRestart a h
  case motion b => exact k.takeMotion a h
  case preview r => exact k.takePreview a h
  case withdraw tag => exact k.takeWithdraw a h
  case selectProfile b => exact k.takeSelectProfile a h
  case trimAhead b n => exact k.takeTrimAhead a h
  case recheck b => exact k.takeRecheck a h
  case setReporting b n => exact k.takeSetReporting a h
  case clearConditions b n => exact k.takeClearConditions a h
  case readOrigin b => exact k.takeReadOrigin b h
  case status => exact k.takeStatus h
  case fetch b => exact k.takeFetch b h
  case fullReset cause => exact k.fullReset _ a _ _
  case resetRelease => exact k.outer s s.lif s.pending false h
  case frontPulseArrival t time =>
    refine State.unlessHeld_induct h fun _ => ?_
    split
    · exact k.frontPulse _ _ a _ h ‹_›
    · exact h
  case rearPulseArrival t =>
    refine State.unlessHeld_induct h fun _ => ?_
    split
    · exact k.rearPulse _ a _ h ‹_›
    · exact h
  case standstill t =>
    refine State.unlessHeld_induct h fun _ => ?_
    split
    · exact h
    · exact k.standstill _ a _ h ‹_›
  case update c raw =>
    refine State.unlessHeld_induct h fun _ => ?_
    split
    · exact k.updateInRun _ _ a _ h ‹_›
    · exact k.updateOutsideRun _ _ a _ h ‹_›
  case currentSample c n => exact State.unlessHeld_induct h fun _ => k.sample _ _ a _ h
  case trackingTimerExpiry c => exact State.unlessHeld_induct h fun _ => k.trackingExpires _ a _ h
  case checkCompletion c r =>
    refine State.unlessHeld_induct h fun _ => ?_
    split
    · exact k.checkCompletes _ _ a _ h ‹_›
    · exact h
  case trimCompletion c r =>
    refine State.unlessHeld_induct h fun _ => ?_
    unfold Vd.trimInProgress
    split
    · rename_i t e
      split at e
      · exact k.trimCompletes _ _ a _ _ h ‹_› e
      · cases e
    · exact h
  case trimTimerExpiry c =>
    refine State.unlessHeld_induct h fun _ => ?_
    split
    · exact h
    · exact k.trimTimerExpires _ a _ h ‹_›
  case silenceExpiry =>
    refine State.unlessHeld_induct h fun _ => ?_
    split
    · exact h
    · unfold State.silenceAtStore
      split
      · rename_i c
        exact k.silence a _ (k.setLif _ _ h) c.1 c.2
      · exact k.setLif _ _ h
  case admission => exact State.unlessHeld_induct h fun _ => k.admitReports a _ _ h

end KeepsIn

/-- A property kept by each change that any command can make is kept by every step. -/
theorem Keeps.step {P : State → Prop} (k : Keeps P) {s t : State} (h : P s) (e : step s = .next t) : P t := by
  unfold Machine.step at e
  split at e
  · injection e with e
    exact e ▸ h
  · exact KeepsIn.exec k trivial (k.outer s s.lif _ s.resetHeld h) e

end Sys2Proof.Machine
end

