-- ==== Sys2Proof/Laws/Requests.lean ====
section
/-! SUPPORT. What every request has in common: the state at its delivery, and that a delivered request is the owner's
judgement with the reply placed; what the collected bits of a well-formed frame are. -/

namespace Sys2Proof.Machine

/-- What the arrival of a frame leaves as it was: everything but the link, the preview state and the MODE marker. -/
@[simp] theorem State.delivered_frame (s : State) :
    s.delivered.pending = s.pending ∧ s.delivered.resetHeld = s.resetHeld ∧ s.delivered.lif.queue = s.lif.queue
      ∧ s.delivered.cfs = s.cfs ∧ s.delivered.tod = s.tod ∧ s.delivered.cc = s.cc ∧ s.delivered.vd = s.vd
      ∧ s.delivered.mdc.mode = s.mdc.mode ∧ s.delivered.mdc.faultedCount = s.mdc.faultedCount
      ∧ s.delivered.mdc.checkEnds = s.mdc.checkEnds ∧ s.delivered.pvs.lists = s.pvs.lists
      ∧ s.delivered.pvs.nextSerial = s.pvs.nextSerial ∧ s.delivered.pvs.nextSpent = s.pvs.nextSpent := by
  simp only [State.delivered, State.endExchange, State.frameArrives, State.arriveAtStore]
  by_cases a : s.mdc.mode = .run ∧ s.pvs.preview = .suspended <;> simp [a]

/-- In RUN a delivered request finds preview ACTIVE (R40). -/
theorem State.delivered_preview (s : State) :
    s.delivered.pvs.preview = if s.mdc.mode = .run then .active else s.pvs.preview := by
  simp only [State.delivered, State.endExchange, State.frameArrives, State.arriveAtStore]
  by_cases a : s.mdc.mode = .run <;> by_cases b : s.pvs.preview = .suspended <;> simp [a, b]
  cases h : s.pvs.preview with
  | suspended => exact absurd h b
  | active => rfl

/-- A delivered request is judged by its owner, and its reply is placed (R191). -/
theorem State.takeRequest_delivers {s : State} (h : s.delivers) (judge : State → State × Reply) :
    s.takeRequest judge = (judge s.delivered).1.place (.reply (judge s.delivered).2) := by
  obtain ⟨a, b⟩ := h
  simp [State.takeRequest, a, Nat.not_le.2 b, State.answer]

/-- A request of a permitted length is taken. -/
theorem State.takeRequestOfLength_permitted (s : State) {k : RequestKind} {n : Nat} (h : k.permits n = true)
    (judge : State → State × Reply) : s.takeRequestOfLength k n judge = s.takeRequest judge := by
  simp [State.takeRequestOfLength, h]

/-- A well-formed frame carries a request of its kind, with a body of a permitted length. -/
theorem judgeFrame_wellFormed {f : RawFrame} {r : Instr} (j : judgeFrame f = .wellFormed r) :
    ∃ k body, RequestKind.permits k body.length = true ∧ sampleCountAgrees k body = true ∧ r = requestOf k body := by
  simp only [judgeFrame] at j
  split at j
  · cases j
  split at j
  · cases j
  split at j
  · cases j
  rename_i k hk
  split at j
  · cases j
  split at j
  · cases j
  rename_i c2 c3
  injection j with j
  simp only [not_or, Decidable.not_not] at c2
  refine ⟨k, (f.bytes.drop 3).take (natAt f.bytes 2), ?_, c2.2.2.2, j.symm⟩
  have : natAt f.bytes 2 ≤ (f.bytes.drop 3).length := by simp only [List.length_drop]; omega
  rw [List.length_take, Nat.min_eq_left this]
  exact c2.2.1

end Sys2Proof.Machine
end

