-- ==== Sys2Proof/Laws/Store.lean ====
section
/-! SUPPORT. What the order of starts does: it rearranges a list, it is the one ascending arrangement wherever there is one,
and there is one wherever the starts lie within half the range of positions; what the release of newly SPENT slots keeps. -/

namespace Sys2Proof.Machine

/-! ## The order of starts -/

theorem before_iff {a b : Position} : before a b = true ↔ 2147483648 ≤ (a - b).toNat := by
  unfold before atOrBeyond difference
  rw [Bool.not_eq_true', decide_eq_false_iff_not, Nat.not_lt]

theorem ahead_iff {a b : Position} : ahead a b = true ↔ (a - b).toNat < 2147483648 ∧ (a - b).toNat ≠ 0 := by
  unfold ahead atOrBeyond difference
  rw [Bool.and_eq_true, decide_eq_true_iff, bne_iff_ne]

theorem insertByStart_perm (x : Slot) (ys : List Slot) : (insertByStart x ys).Perm (x :: ys) := by
  induction ys with
  | nil => exact .refl _
  | cons y ys ih =>
    unfold insertByStart
    split
    · exact .refl _
    · exact (ih.cons y).trans (.swap x y ys)

theorem inStartOrder_perm (xs : List Slot) : (inStartOrder xs).Perm xs := by
  induction xs with
  | nil => exact .refl _
  | cons x xs ih => exact (insertByStart_perm x _).trans (ih.cons x)

@[simp] theorem mem_inStartOrder {x : Slot} {xs : List Slot} : x ∈ inStartOrder xs ↔ x ∈ xs := (inStartOrder_perm xs).mem_iff

@[simp] theorem length_inStartOrder (xs : List Slot) : (inStartOrder xs).length = xs.length := (inStartOrder_perm xs).length_eq

/-- Where the comparison of starts is that of a key, a slot is placed by its key. -/
theorem insertByStart_pairwise {key : Slot → Nat} {x : Slot} {ys : List Slot}
    (order : ∀ a ∈ x :: ys, ∀ b ∈ x :: ys, before a.segment.start b.segment.start = true ↔ key a < key b)
    (sorted : ys.Pairwise fun a b => key a ≤ key b) : (insertByStart x ys).Pairwise fun a b => key a ≤ key b := by
  induction ys with
  | nil => exact List.pairwise_singleton _ _
  | cons y ys ih =>
    rw [List.pairwise_cons] at sorted
    have first := order x (by simp) y (by simp)
    unfold insertByStart
    split
    · rename_i h
      have less := first.1 h
      refine .cons (fun b hb => ?_) (.cons sorted.1 sorted.2)
      rcases List.mem_cons.1 hb with rfl | hb
      · omega
      · have := sorted.1 b hb
        omega
    · rename_i h
      refine .cons (fun b hb => ?_) (ih (fun a ha b hb => ?_) sorted.2)
      · rcases List.mem_cons.1 ((insertByStart_perm x ys).mem_iff.1 hb) with rfl | hb
        · have := mt first.2 h
          omega
        · exact sorted.1 b hb
      · have drop : ∀ c ∈ x :: ys, c ∈ x :: y :: ys := fun c hc =>
          List.mem_cons.2 ((List.mem_cons.1 hc).imp id (List.mem_cons_of_mem y))
        exact order a (drop a ha) b (drop b hb)

/-- Where the comparison of starts is that of a key, the order of starts is that of the key. -/
theorem inStartOrder_pairwise {key : Slot → Nat} {xs : List Slot}
    (order : ∀ a ∈ xs, ∀ b ∈ xs, before a.segment.start b.segment.start = true ↔ key a < key b) :
    (inStartOrder xs).Pairwise fun a b => key a ≤ key b := by
  induction xs with
  | nil => exact .nil
  | cons x xs ih =>
    refine insertByStart_pairwise (fun a ha b hb => order a ?_ b ?_)
      (ih fun a ha b hb => order a (List.mem_cons_of_mem x ha) b (List.mem_cons_of_mem x hb))
    · exact List.mem_cons.2 ((List.mem_cons.1 ha).imp id mem_inStartOrder.1)
    · exact List.mem_cons.2 ((List.mem_cons.1 hb).imp id mem_inStartOrder.1)

/-- A start ahead of another is the one after which the other comes, and not the other way round (R1). -/
theorem before_of_ahead {a b : Position} (h : ahead b a = true) : before a b = true ∧ before b a = false := by
  have turn : (a - b).toNat = (4294967296 - (b - a).toNat) % 4294967296 := by
    simp only [BitVec.toNat_sub]
    omega
  rw [ahead_iff] at h
  rw [before_iff, ← Bool.not_eq_true, before_iff]
  omega

/-- In an ascending list a slot comes before another exactly where its start does. -/
theorem before_iff_idxOf {ws : List Slot} (ascending : ws.Pairwise fun a b => ahead b.segment.start a.segment.start = true)
    {a b : Slot} (ha : a ∈ ws) (hb : b ∈ ws) :
    (before a.segment.start b.segment.start = true ↔ ws.idxOf a < ws.idxOf b)
      ∧ (ahead b.segment.start a.segment.start = true ↔ ws.idxOf a < ws.idxOf b) := by
  have byPlace : ∀ i j (hi : i < ws.length) (hj : j < ws.length), i < j →
      ahead ws[j].segment.start ws[i].segment.start = true :=
    fun i j hi hj h => List.pairwise_iff_getElem.1 ascending i j hi hj h
  have ia := List.idxOf_lt_length_of_mem ha
  have ib := List.idxOf_lt_length_of_mem hb
  have ea : ws[ws.idxOf a] = a := List.getElem_idxOf ia
  have eb : ws[ws.idxOf b] = b := List.getElem_idxOf ib
  have forth : ws.idxOf a < ws.idxOf b → ahead b.segment.start a.segment.start = true := fun l => by
    have := byPlace _ _ ia ib l
    rwa [ea, eb] at this
  have back : before a.segment.start b.segment.start = true → ws.idxOf a < ws.idxOf b := fun h => by
    refine Decidable.byContradiction fun hn => ?_
    rcases Nat.lt_or_eq_of_le (Nat.le_of_not_lt hn) with l | e
    · have := before_of_ahead (byPlace _ _ ib ia l)
      rw [ea, eb, h] at this
      exact absurd this.2 (by simp)
    · have : a = b := by rw [← ea, ← eb]; simp only [e]
      subst this
      simp [before, atOrBeyond, difference] at h
  exact ⟨⟨back, fun l => (before_of_ahead (forth l)).1⟩, ⟨fun h => back (before_of_ahead h).1, forth⟩⟩

/-- The order of starts is the ascending arrangement of a list wherever there is one. -/
theorem inStartOrder_eq {xs ws : List Slot} (perm : ws.Perm xs)
    (ascending : ws.Pairwise fun a b => ahead b.segment.start a.segment.start = true) : inStartOrder xs = ws := by
  have order : ∀ a ∈ xs, ∀ b ∈ xs, (before a.segment.start b.segment.start = true ↔ ws.idxOf a < ws.idxOf b) :=
    fun a ha b hb => (before_iff_idxOf ascending (perm.mem_iff.2 ha) (perm.mem_iff.2 hb)).1
  have all := (inStartOrder_perm xs).trans perm.symm
  refine all.eq_of_pairwise (le := fun a b => ws.idxOf a ≤ ws.idxOf b) (fun a b ha hb h k => ?_)
    (inStartOrder_pairwise order) (ascending.imp_of_mem fun {a b} ha hb h => ?_)
  · have ia := List.idxOf_lt_length_of_mem (all.mem_iff.1 ha)
    have ib := List.idxOf_lt_length_of_mem hb
    rw [← List.getElem_idxOf ia, ← List.getElem_idxOf ib]
    simp only [Nat.le_antisymm h k]
  · exact Nat.le_of_lt ((order a (perm.mem_iff.1 ha) b (perm.mem_iff.1 hb)).1 (before_of_ahead h).1)

/-- The order of starts is ascending where no two starts are the same and all lie within half the range of positions. -/
theorem inStartOrder_ascending {xs : List Slot} (base : Position)
    (near : ∀ x ∈ xs, (x.segment.start - base).toNat < 2147483648)
    (distinct : xs.Pairwise fun a b => a.segment.start ≠ b.segment.start) :
    (inStartOrder xs).Pairwise fun a b => ahead b.segment.start a.segment.start = true := by
  have apart : ∀ a b : Position, (a - b).toNat
      = ((a - base).toNat + (4294967296 - (b - base).toNat)) % 4294967296 := by
    intro a b
    simp only [BitVec.toNat_sub]
    omega
  have order : ∀ a ∈ xs, ∀ b ∈ xs,
      (before a.segment.start b.segment.start = true ↔ (a.segment.start - base).toNat < (b.segment.start - base).toNat) := by
    intro a ha b hb
    have na := near a ha
    have nb := near b hb
    rw [before_iff, apart a.segment.start b.segment.start]
    omega
  have differ := (inStartOrder_perm xs).symm.pairwise distinct fun {_ _} h e => h e.symm
  refine ((inStartOrder_pairwise order).and differ).imp_of_mem fun {a b} ha hb h => ?_
  have na := near a (mem_inStartOrder.1 ha)
  have nb := near b (mem_inStartOrder.1 hb)
  have ne : (a.segment.start - base).toNat ≠ (b.segment.start - base).toNat := by
    intro e
    refine h.2 ?_
    have := BitVec.eq_of_toNat_eq e
    have := congrArg (· + base) this
    simpa [BitVec.sub_add_cancel] using this
  rw [ahead_iff, apart b.segment.start a.segment.start]
  omega

/-! ## Lists as slots enter and leave them -/

theorem ascending_iff {xs : List Slot} :
    ascending xs = true ↔ xs.Pairwise fun a b => ahead b.segment.start a.segment.start = true := by
  induction xs with
  | nil => simp [ascending]
  | cons x xs ih => simp [ascending, ih]

theorem arrange_perm (xs : List Slot) : (arrange xs).Perm xs := by
  unfold arrange
  split
  · exact inStartOrder_perm xs
  · exact .refl _

@[simp] theorem mem_arrange {x : Slot} {xs : List Slot} : x ∈ arrange xs ↔ x ∈ xs := (arrange_perm xs).mem_iff

@[simp] theorem length_arrange (xs : List Slot) : (arrange xs).length = xs.length := (arrange_perm xs).length_eq

/-- Slots that have an ascending arrangement stand in it. -/
theorem arrange_eq {xs ws : List Slot} (perm : ws.Perm xs)
    (rising : ws.Pairwise fun a b => ahead b.segment.start a.segment.start = true) : arrange xs = ws := by
  have e := inStartOrder_eq perm rising
  rw [arrange, e, if_pos (ascending_iff.2 rising)]

/-- Slots that have no ascending arrangement stand as they are given. -/
theorem arrange_eq_self {xs : List Slot}
    (none : ∀ ws : List Slot, ws.Perm xs → ¬ws.Pairwise fun a b => ahead b.segment.start a.segment.start = true) :
    arrange xs = xs :=
  if_neg fun h => none _ (inStartOrder_perm xs) (ascending_iff.1 h)

/-- A change of slots that keeps their segments changes nothing of their order. -/
theorem inStartOrder_map {f : Slot → Slot} (keeps : ∀ x, (f x).segment = x.segment) (xs : List Slot) :
    inStartOrder (xs.map f) = (inStartOrder xs).map f := by
  have one : ∀ (x : Slot) (ys : List Slot), insertByStart (f x) (ys.map f) = (insertByStart x ys).map f := by
    intro x ys
    induction ys with
    | nil => rfl
    | cons y ys ih => simp only [List.map_cons, insertByStart, keeps, ih]; split <;> rfl
  induction xs with
  | nil => rfl
  | cons x xs ih =>
    rw [List.map_cons, inStartOrder, List.foldr_cons]
    exact (congrArg (insertByStart (f x)) ih).trans (one x _)

theorem arrange_map {f : Slot → Slot} (keeps : ∀ x, (f x).segment = x.segment) (xs : List Slot) :
    arrange (xs.map f) = (arrange xs).map f := by
  have same : ascending ((inStartOrder xs).map f) = ascending (inStartOrder xs) := by
    rw [Bool.eq_iff_iff, ascending_iff, ascending_iff, List.pairwise_map]
    simp only [keeps]
  unfold arrange
  rw [inStartOrder_map keeps, same]
  split <;> rfl

/-! ## The segment in effect -/

/-- The latest of some slots, where the comparison of starts is that of a key. -/
theorem foldl_laterStart {key : Slot → Nat} (b : Slot) (xs : List Slot)
    (order : ∀ x ∈ b :: xs, ∀ y ∈ b :: xs, ahead y.segment.start x.segment.start = true ↔ key x < key y) :
    ∃ m ∈ b :: xs, xs.foldl laterStart (some b) = some m ∧ ∀ x ∈ b :: xs, key x ≤ key m := by
  induction xs generalizing b with
  | nil => exact ⟨b, by simp, rfl, by simp⟩
  | cons x xs ih =>
    have first := order b (by simp) x (by simp)
    have drop : ∀ c, c = b ∨ c = x → ∀ z ∈ c :: xs, z ∈ b :: x :: xs := by
      intro c hc z hz
      rcases List.mem_cons.1 hz with rfl | hz
      · rcases hc with rfl | rfl <;> simp
      · simp [hz]
    rw [List.foldl_cons, laterStart]
    split
    · rename_i h
      obtain ⟨m, mem, e, top⟩ := ih x fun u hu v hv => order u (drop x (.inr rfl) u hu) v (drop x (.inr rfl) v hv)
      refine ⟨m, drop x (.inr rfl) m mem, e, fun z hz => ?_⟩
      have below := first.1 h
      have xm := top x (by simp)
      rcases List.mem_cons.1 hz with rfl | hz
      · omega
      · exact top z hz
    · rename_i h
      obtain ⟨m, mem, e, top⟩ := ih b fun u hu v hv => order u (drop b (.inl rfl) u hu) v (drop b (.inl rfl) v hv)
      refine ⟨m, drop b (.inl rfl) m mem, e, fun z hz => ?_⟩
      have bm := top b (by simp)
      have below := mt first.2 h
      rcases List.mem_cons.1 hz with rfl | hz
      · exact bm
      · rcases List.mem_cons.1 hz with rfl | hz
        · omega
        · exact top z (List.mem_cons_of_mem b hz)

/-- The order in which a list stands changes nothing of the segment in effect (R57). -/
theorem inEffectOf_arrange (xs : List Slot) (r : Role) : inEffectOf (arrange xs) r = inEffectOf xs r := by
  by_cases rises : ascending (inStartOrder xs) = true
  · have rising := ascending_iff.1 rises
    have latest : ∀ ys : List Slot, (∀ y ∈ ys, y ∈ inStartOrder xs) →
        (ys = [] ∧ ys.foldl laterStart none = none)
          ∨ ∃ m ∈ ys, ys.foldl laterStart none = some m
            ∧ ∀ y ∈ ys, (inStartOrder xs).idxOf y ≤ (inStartOrder xs).idxOf m := by
      intro ys sub
      cases ys with
      | nil => exact .inl ⟨rfl, rfl⟩
      | cons y ys => exact .inr (foldl_laterStart y ys fun u hu v hv => (before_iff_idxOf rising (sub u hu) (sub v hv)).2)
    have perm : ((arrange xs).filter fun x => x.state.isInEffect r).Perm (xs.filter fun x => x.state.isInEffect r) :=
      (arrange_perm xs).filter _
    have sub : ∀ y ∈ xs.filter fun x => x.state.isInEffect r, y ∈ inStartOrder xs :=
      fun y hy => mem_inStartOrder.2 (List.mem_filter.1 hy).1
    unfold inEffectOf
    rcases latest _ fun y hy => sub y (perm.mem_iff.1 hy) with ⟨e, one⟩ | ⟨m, mem, one, top⟩
    · rw [e] at perm
      rw [one, perm.symm.eq_nil]
      rfl
    · rcases latest _ sub with ⟨e, two⟩ | ⟨k, kem, two, kop⟩
      · rw [e] at perm
        rw [perm.eq_nil] at mem
        cases mem
      · rw [one, two]
        have im := List.idxOf_lt_length_of_mem (sub m (perm.mem_iff.1 mem))
        have ik := List.idxOf_lt_length_of_mem (sub k kem)
        rw [← List.getElem_idxOf im, ← List.getElem_idxOf ik]
        simp only [Nat.le_antisymm (kop m (perm.mem_iff.1 mem)) (top k (perm.mem_iff.2 kem))]
  · rw [arrange, if_neg rises]

/-! ## The release of newly SPENT slots -/

/-- A place changes nothing of a slot but its spent place. -/
@[simp] theorem Slot.takePlace_segment (x : Slot) (n : Nat) (waiting : List Slot) :
    (x.takePlace n waiting).segment = x.segment ∧ (x.takePlace n waiting).serial = x.serial
      ∧ (x.takePlace n waiting).state = x.state ∧ (x.takePlace n waiting).front = x.front
      ∧ (x.takePlace n waiting).rear = x.rear ∧ (x.takePlace n waiting).incomplete = x.incomplete
      ∧ (x.takePlace n waiting).overrideUsed = x.overrideUsed := by
  unfold Slot.takePlace
  split <;> simp

/-- The segments that stay are those of the list without the newly SPENT ones with report no. -/
theorem settle_segments (n : Nat) (xs : List Slot) :
    ((settle n xs).1.map Slot.segment).Perm ((xs.filter fun x => !x.newlySpent || x.segment.report).map Slot.segment)
      ∧ ((settle n xs).1.map Slot.serial).Perm
        ((xs.filter fun x => !x.newlySpent || x.segment.report).map Slot.serial) := by
  have a : (Slot.segment ∘ fun x => x.takePlace n (newlyWaiting xs)) = Slot.segment := by funext x; simp
  have b : (Slot.serial ∘ fun x => x.takePlace n (newlyWaiting xs)) = Slot.serial := by funext x; simp
  simp only [settle, List.map_map, a, b]
  exact ⟨(arrange_perm _).map _, (arrange_perm _).map _⟩

/-- A slot that is not newly SPENT stays as it is. -/
theorem mem_settle_of_not_newlySpent {x : Slot} {xs : List Slot} (n : Nat) (mem : x ∈ xs) (h : x.newlySpent = false) :
    x ∈ (settle n xs).1 :=
  List.mem_map.2 ⟨x, mem_arrange.2 (List.mem_filter.2 ⟨mem, by simp [h]⟩), by simp [Slot.takePlace, h]⟩

end Sys2Proof.Machine
end

