-- ==== Sys2Proof/Laws/Switches.lean ====
section
/-! SUPPORT. What a switch of a corner changes: everything that State.switchCorner can do, said once (R83, R85). -/

namespace Sys2Proof.Machine

theorem State.allFollow_iff (s : State) (p : ProfileName) :
    s.allFollow p = true ↔ ∀ e, (s.cc.get e).followed = p := by
  simp only [State.allFollow, List.all_eq_true, beq_iff_eq]
  exact ⟨fun h e => h e (by cases e <;> decide), fun h e _ => h e⟩

theorem State.hasSwitch_iff (s : State) (c : Corner) :
    s.hasSwitch c = true ↔ ∃ p, s.cfs.pendingProfile = some p ∧ (s.cc.get c).followed ≠ p := by
  unfold State.hasSwitch
  split
  · rename_i h
    simp [h]
  · rename_i p h
    simp [h]

theorem DriverState.drivesOrTrims_iff (d : DriverState) : d.drivesOrTrims = true ↔ d = .drive ∨ d = .trim := by
  cases d <;> simp [DriverState.drivesOrTrims]

/-- A corner that takes the pending profile. -/
theorem State.takePending_some {s : State} {p : ProfileName} (h : s.cfs.pendingProfile = some p) (c : Corner) :
    s.takePending c =
      s.setCc c
        { s.cc.get c with followed := p, switchReference := .notSet, switchPosition := some (s.cornerPosition c) } := by
  simp [State.takePending, h]

@[simp] theorem State.completeSwitch_cc (s : State) : s.completeSwitch.cc = s.cc := by
  unfold State.completeSwitch
  (repeat' split) <;> rfl

/-- A switch of a corner that has one to make: the corner and the selection are as `State.hasSwitched` says, its other
items and the other corners stay. -/
theorem State.switchCorner_spec {s : State} {c : Corner} {p : ProfileName} (h : s.cfs.pendingProfile = some p) :
    s.hasSwitched (s.switchCorner c) c
      ∧ (s.switchCorner c).cc = s.cc.set c
        { s.cc.get c with followed := p, switchReference := .notSet, switchPosition := some (s.cornerPosition c) } := by
  have taken := State.takePending_some h c
  have cc : (s.switchCorner c).cc = s.cc.set c
      { s.cc.get c with followed := p, switchReference := .notSet, switchPosition := some (s.cornerPosition c) } := by
    rw [State.switchCorner, State.completeSwitch_cc, taken]
    rfl
  have all : (s.takePending c).allFollow p = true ↔ ∀ e, e ≠ c → (s.cc.get e).followed = p := by
    rw [State.allFollow_iff, taken]
    constructor
    · intro h e n
      simpa [n] using h e
    · intro h e
      by_cases n : e = c
      · subst n
        simp
      · simpa [n] using h e n
  have cfs : (s.takePending c).cfs = s.cfs := by rw [taken]; rfl
  refine ⟨⟨p, h, ?_, ?_, ?_, fun others => ?_, fun other => ?_⟩, cc⟩
  · simp [cc]
  · simp [cc]
  · simp [cc]
  · have now := all.2 others
    unfold State.switchCorner State.completeSwitch
    rw [cfs, h]
    simp only
    rw [if_pos now]
    rfl
  · obtain ⟨e, n, k⟩ := other
    unfold State.switchCorner State.completeSwitch
    rw [cfs, h]
    simp only
    rw [if_neg fun now => k (all.1 now e n)]
    exact cfs

end Sys2Proof.Machine
end

