-- ==== Sys2Proof/Tests/Slice0.lean ====
section
/-! SUPPORT. Tests: the checks of WellFormed, the worked examples of the manual, and for every statement that has hypotheses
a state and operands that meet them, clause by clause. -/

namespace Sys2Proof.Tests

-- Each `decide +kernel` waits on its own thread for the kernel; one after the other they need no more than one.
set_option Elab.async false

open Sys2Proof.Machine

/-! ## Small states -/

/-- The row of BUMP in the example of 04_ride_profiles.md. -/
def bumpRow : ResponseRow :=
  { frontBase := 300, rearBase := 320, slope := 4, combine := .max, leadExtension := 100, trail := 60, roughStep := 0 }

/-- Profile A of the examples: the rows of 04_ride_profiles.md, the other items of 05_corner_control.md. -/
def profileA : Profile :=
  { floor := 150, ceiling := 850, gain := 20, rateLimit := 120, responseTime := 20, threshold := 6
    rows :=
      { smooth := { bumpRow with leadExtension := 0 }, bump := bumpRow, stepUp := bumpRow
        pothole := { bumpRow with frontBase := 900, rearBase := 900, slope := 10, leadExtension := 150, trail := 20 }
        stepDown := { bumpRow with frontBase := 100, slope := 0, combine := .replace }
        rough := { bumpRow with frontBase := 350, rearBase := 380, slope := 2, leadExtension := 50, trail := 100, roughStep := 12 }
        unknown := { bumpRow with frontBase := 500, rearBase := 500, slope := 0, leadExtension := 200, trail := 100 } } }

/-- Another profile. -/
def profileB : Profile := { profileA with floor := 200 }

/-- A corner's entry: the valid range and the scale of the example of 05_corner_control.md. -/
def entry : CornerGeometry := { low := -2000, high := 2000, scale := 10, substitution := .axlePartner }

/-- Group 3, with the pulses of 01_track_odometry_and_motion.md. -/
def geometry : Geometry :=
  { wheelbase := 2900, pulses := ⟨⟨19635, 19800⟩, ⟨19635, 19800⟩⟩, lockCount := 8, slipWindow := 5000, slipThreshold := 3
    corners := ⟨entry, entry, entry, entry⟩, separateFront := false, separateRear := false }

/-- Group 4, with the values of 07_valve_drivers.md and 08_faults_and_escalation.md. -/
def limits : Limits :=
  { warm := 120, hot := 150, overcurrent := 1600, silenceTimeout := 100, trimInterval := 200, trackingBand := 100
    trackingWindow := 10 }

/-- The map of the example of R128. -/
def valveMap : ValveMap :=
  { p1 := ⟨0, 1400⟩, p2 := ⟨125, 1300⟩, p3 := ⟨250, 1150⟩, p4 := ⟨375, 1000⟩, p5 := ⟨500, 850⟩, p6 := ⟨625, 700⟩
    p7 := ⟨750, 550⟩, p8 := ⟨875, 350⟩, p9 := ⟨1000, 0⟩, holdCurrent := 600, coldResistance := 300, shortLimit := 150
    openLimit := 900 }

/-- The configuration, every group SET, with a variant record of a cap of 1,400 mA. -/
def configuration : Cfs :=
  { Cfs.reset with
    valveMaps := some { front := .shared valveMap, rear := .shared valveMap }
    profileA := some profileA, profileB := some profileB, geometry := some geometry, limits := some limits
    variant := some { code := 0, cap := 1400 } }

/-- The part in CONFIG, configured. -/
def ready : State := { State.reset with cfs := configuration }

/-- An odometer LOCKED in FORWARD at 500,000 mm. -/
def lockedTod : Tod :=
  { Tod.reset with
    position := 500000, speed := 30000, previousTime := some 1000, lastInterval := some 654, lock := .locked
    direction := .forward, runCount := 8, standstill := .running 500 }

/-- A driver in DRIVE at the floor of profile A. -/
def driveVd : Vd :=
  { Vd.reset with
    state := .drive, setpoint := 1270, heldDemand := 150, resistance := some 350, temperature := some 62
    trimTimer := .running 200 }

/-- The part in RUN: preview ACTIVE, both tracks LOCKED, every driver in DRIVE. -/
def running : State :=
  { ready with
    mdc := { Mdc.reset with mode := .run }
    tod := PerTrack.of fun _ => lockedTod
    pvs := { Store.reset with preview := .active }
    cc := PerCorner.of fun _ => { Cc.reset with lastDemand := 150, previousHeight := some 0 }
    vd := PerCorner.of fun _ => driveVd }

/-- Segment 520 of 04_ride_profiles.md, here from 500,300 mm. -/
def bump : Segment :=
  { tag := 520, track := .left, kind := .bump, start := 500300, length := 400, amplitude := 30, confidence := 9
    report := true, override := none, roughIntensity := none, samples := [10, 25, 40, 20] }

/-- A slot that holds it. -/
def bumpSlot (serial : Nat) (state : SlotState) : Slot := { Slot.accepted serial bump with state }

/-- The part in RUN with one segment on LEFT. -/
def holding (state : SlotState) : State :=
  { running with pvs := { running.pvs with lists := ⟨[bumpSlot 0 state], []⟩, nextSerial := 1 } }

/-- The part with a queue of a number of replies. -/
def queued (s : State) (n : Nat) : State := s.setLif { s.lif with queue := List.replicate n (.reply (.motion .ok)) }

/-- The state after a command. -/
def after (c : Instr) (s : State) : State :=
  match exec c s with
  | .next t => t
  | .fault _ => s
  | .refused _ => s

/-- A driver's state replaced at FL. -/
def withFl (s : State) (v : Vd) : State := s.setVd .fl v

/-! ## WellFormed: each check refuses an ill-formed command -/

/-- The bytes of the frame of IDENTIFY, written out. -/
def identifyFrame : RawFrame := { bytes := [0xB6, 0x01, 0x00] ++ bytesOfHalf (crc16 [0x01, 0x00]) }

/-- The bytes of the frame of FETCH with an empty body, written out. -/
def fetchFrame : RawFrame := { bytes := [0xB6, 0x13, 0x00] ++ bytesOfHalf (crc16 [0x13, 0x00]) }

/-- A segment record: segment 520. -/
def bumpRecord : SegmentRecord :=
  { tag := 520, track := 0, kind := 1, start := 500300, length := 400, amplitude := 30, confidence := 9, options := 1
    overrideFront := 0, overrideRear := 0, roughIntensity := 0, samples := [10, 25, 40, 20] }

theorem test_wellFormed_setGroup : (Instr.setGroup 1 [0, 0]).wellFormed = false
    ∧ (Instr.setGroup 1 (List.replicate 87 0)).wellFormed = true := by decide +kernel

theorem test_wellFormed_preview : (Instr.preview { bumpRecord with samples := List.replicate 9 0 }).wellFormed = false
    ∧ (Instr.preview bumpRecord).wellFormed = true := by decide +kernel

theorem test_wellFormed_fetch : (Instr.fetch (List.replicate 249 0)).wellFormed = false
    ∧ (Instr.fetch (List.replicate 248 0)).wellFormed = true := by decide +kernel

theorem test_wellFormed_malformedFrame : (Instr.malformedFrame identifyFrame).wellFormed = false
    ∧ (Instr.malformedFrame { bytes := [0xB6] }).wellFormed = true := by decide +kernel

theorem test_wellFormed_noRoom_malformed : (Instr.noRoom { bytes := [0xB6] }).wellFormed = false
    ∧ (Instr.noRoom identifyFrame).wellFormed = true := by decide +kernel

theorem test_wellFormed_noRoom_fetch : (Instr.noRoom fetchFrame).wellFormed = false := by decide +kernel

theorem test_wellFormed_update : (Instr.update .fl 32768).wellFormed = false ∧ (Instr.update .fl (-32769)).wellFormed = false
    ∧ (Instr.update .fl (-32768)).wellFormed = true := by decide +kernel

/-! ## Worked examples of the manual -/

/-- The check value of this CRC over the nine digits (assumption log 22). -/
theorem test_crc_check_value :
    crc16 [0x31, 0x32, 0x33, 0x34, 0x35, 0x36, 0x37, 0x38, 0x39] = 0x29B1 := by decide +kernel

/-- R128, the example: a point, and between points. -/
theorem test_map_example : valveMap.current 150 = 1270 ∧ valveMap.current 460 = 898 ∧ valveMap.current 580 = 754
    ∧ valveMap.current 900 = 280 ∧ valveMap.current 1000 = 0 := by decide +kernel

/-- 07_valve_drivers.md, the trim balance: the estimates of its completions. -/
theorem test_temperature_example : valveMap.temperatureOf 389 = 95 ∧ valveMap.temperatureOf 390 = 96
    ∧ valveMap.temperatureOf 391 = 97 ∧ valveMap.temperatureOf 9999 = 250 ∧ valveMap.temperatureOf 0 = -40 := by decide +kernel

/-- R24, the example: a live front lead of 700 mm. -/
theorem test_live_lead_example : liveLead profileA 30000 bump = 700 := by decide +kernel

/-- 04_ride_profiles.md, segment 520: the preview demands at FL and at RL. -/
theorem test_preview_demand_example :
    (bumpSlot 0 .frontLead).previewDemand profileA .front 499800 = 340
      ∧ (bumpSlot 0 .frontOn).previewDemand profileA .front 500300 = 340
      ∧ (bumpSlot 0 .frontOn).previewDemand profileA .front 500400 = 400
      ∧ (bumpSlot 0 .frontOn).previewDemand profileA .front 500500 = 460
      ∧ (bumpSlot 0 .frontOn).previewDemand profileA .front 500699 = 380
      ∧ (bumpSlot 0 .frontOn).previewDemand profileA .front 500730 = 380
      ∧ (bumpSlot 0 .rearOn).previewDemand profileA .rear 500500 = 480 := by decide +kernel

/-- 04_ride_profiles.md, the other segments: ROUGH, low confidence, POTHOLE, override. -/
theorem test_preview_demand_other_segments :
    (Slot.accepted 0 { bump with kind := .rough, amplitude := 8, samples := [], roughIntensity := some 7 }).previewDemand
        profileA .front 0 = 450
      ∧ (Slot.accepted 0 { bump with kind := .rough, amplitude := 8, samples := [] }).previewDemand profileA .front 0 = 366
      ∧ (Slot.accepted 0 { bump with kind := .rough, amplitude := 8, samples := [], confidence := 3 }).previewDemand
          profileA .front 0 = 500
      ∧ (Slot.accepted 0 { bump with kind := .pothole, amplitude := -40, samples := [] }).previewDemand
          profileA .front 0 = 1000
      ∧ (Slot.accepted 0 { bump with override := some ⟨200, 650⟩ }).previewDemand profileA .rear 0 = 650 := by decide +kernel

/-- 05_corner_control.md, updates 2, 4 and 8: the demands and results. -/
theorem test_demand_example :
    (computeDemand profileA .front 499800 (some 300) (some (bumpSlot 0 .frontLead)) 150).final = 270
      ∧ (computeDemand profileA .front 500400 (some 4800) (some (bumpSlot 0 .frontOn)) 340).final = 460
      ∧ (computeDemand profileA .front 500800 (some (-500)) none 670).final = 550 := by decide +kernel

/-- 01_track_odometry_and_motion.md, pulses 12 and 13 of the lock example. -/
theorem test_lock_example :
    let o : Tod :=
      { Tod.reset with
        position := 1235, remainder := 620, lock := .acquiring, runCount := 7, direction := .forward
        previousTime := some 12300, lastInterval := some 1000, standstill := .running 500 }
    let s := { ready with mdc := { Mdc.reset with mode := .starting }, tod := ⟨o, Tod.reset⟩ }
    (after (.frontPulseArrival .left 13300) s).tod.left =
      { o with
        position := 1255, remainder := 255, speed := 19635, previousTime := some 13300, lock := .locked, runCount := 8
        marker := some { track := .left, state := .locked, cause := .acquired, position := 1255 } } := by decide +kernel

/-- 01_track_odometry_and_motion.md, the slip example: the 260th and the 261st rear pulse of the second window. -/
theorem test_slip_example :
    let s := { running with tod := ⟨{ lockedTod with rearTravel := 5128200 }, lockedTod⟩ }
    (after (.rearPulseArrival .left) s).tod.left = { lockedTod with rearTravel := 5148000 }
      ∧ (after (.rearPulseArrival .left) (after (.rearPulseArrival .left) s)).tod.left =
        { lockedTod with
          lock := .unlocked, runCount := 0
          marker := some { track := .left, state := .unlocked, cause := .slip, position := 500000 } } := by decide +kernel

/-- 07_valve_drivers.md: the expiry that brings the balance to +8 starts a trim; its completion leaves +7. -/
theorem test_forced_trim_example :
    let s := withFl running { driveVd with balance := 7, quiet := false }
    (after (.trimTimerExpiry .fl) s).vd.fl =
        { driveVd with
          state := .trim, balance := 8, quiet := false, operation := .running 3
          trim := some { origin := .drive, kind := .due } }
      ∧ (after (.trimCompletion .fl 389) (after (.trimTimerExpiry .fl) s)).vd.fl =
        { driveVd with balance := 7, quiet := false, resistance := some 389, temperature := some 95 } := by decide +kernel

/-- 08_faults_and_escalation.md: the tracking fault of FL at 10.1 ms. -/
theorem test_tracking_fault_example :
    let s := { withFl running { driveVd with setpoint := 898, tracking := .running 10 } with
      tod := ⟨{ lockedTod with position := 400303 }, lockedTod⟩ }
    (after (.trackingTimerExpiry .fl) s).vd.fl.faultRecord = some
        { kind := .tracking, state := .drive, mode := .run, measured := 0, setpoint := 898, position := 400303 }
      ∧ (after (.trackingTimerExpiry .fl) s).vd.fl.retryCount = 1
      ∧ (after (.trackingTimerExpiry .fl) s).mdc.faultedCount = 1
      ∧ (after (.trackingTimerExpiry .fl) s).mdc.mode = .run := by decide +kernel

/-- 03_segment_passage.md: an advance takes a segment from PENDING to FRONT_LEAD, and freezes the lead. -/
theorem test_passage_example :
    let v : RoleView := { position := 500004, profile := profileA, demand := 340 }
    let w : AdvanceView := { speed := 10000, front := v, rear := { v with position := 497104 } }
    ((bumpSlot 0 .pending).advance w).state = .frontLead
      ∧ ((bumpSlot 0 .pending).advance w).front.frozenLead = some 300
      ∧ ((bumpSlot 0 .pending).advance { w with front := { v with position := 500320 } }).state = .frontOn
      ∧ ((bumpSlot 0 .pending).advance { w with front := { v with position := 500320 } }).front.entryDemand = some 340
      ∧ ((bumpSlot 0 .frontOn).advance { w with front := { v with position := 500760 } }).front.missed = true := by decide +kernel

/-! ## The invariants hold of a part in RUN with segments in the store -/

/-- The part in RUN with a SPENT and a PENDING segment on LEFT. -/
def stocked : State :=
  { running with
    pvs :=
      { running.pvs with
        lists :=
          ⟨[{ bumpSlot 0 .spent with spentPlace := some 0 },
            { bumpSlot 1 .pending with segment := { bump with tag := 521, start := 520000 } }], []⟩
        nextSerial := 2, nextSpent := 1 } }

theorem test_running_modes : running.modesAgree :=
  ⟨fun c => by cases c <;> rfl, by decide +kernel, by decide +kernel, by decide +kernel⟩

theorem test_running_configured : running.configured := fun _ => by decide +kernel

theorem test_running_contents : running.contentsPass := by
  refine ⟨?_, ?_, ?_, ?_, ?_, ?_⟩
  · intro m h
    injection h with h
    subst h
    exact ⟨geometry, rfl, rfl, rfl, by decide +kernel⟩
  all_goals
    intro x h
    injection h with h
    subst h
    decide +kernel

theorem test_running_setpoints : running.setpointsAgree := fun c => by cases c <;> exact ⟨by rfl, by decide +kernel⟩

theorem test_running_trims : running.trimsBounded := fun c => by
  cases c <;> exact ⟨by decide +kernel, by decide +kernel, fun _ => by decide +kernel, fun h => by cases h⟩

theorem test_running_held : running.heldIsLast := fun c => by cases c <;> rfl

theorem test_running_selection : running.selectionAgrees := fun c => by cases c <;> rfl

theorem test_stocked_locks : stocked.locksAgree := fun t => by cases t <;> exact ⟨fun _ => rfl, fun h => by cases h⟩

theorem test_stocked_preview : stocked.previewAgrees := fun _ => rfl

theorem test_stocked_passage : stocked.passageAgrees := fun t => by cases t <;> exact fun _ _ _ => ⟨rfl, rfl⟩

theorem test_stocked_sound : stocked.pvs.sound := by
  refine ⟨by decide +kernel, by decide +kernel, by decide +kernel, fun t => ?_, fun t => ?_, by decide +kernel⟩
  · cases t <;> decide +kernel
  · cases t
    · exact .cons (by intro y h; simp only [List.mem_singleton] at h; subst h; rfl) (.cons (by simp) .nil)
    · exact .nil

theorem test_stocked_placed : stocked.pvs.placed := by
  refine ⟨?_, by decide +kernel⟩
  intro x h
  have h : x ∈ [{ bumpSlot 0 .spent with spentPlace := some 0 },
    { bumpSlot 1 .pending with segment := { bump with tag := 521, start := 520000 } }] := h
  simp only [List.mem_cons, List.not_mem_nil, or_false] at h
  rcases h with h | h <;> subst h
  · refine ⟨by decide +kernel, fun _ => rfl, fun n h => ?_⟩
    injection h with h
    subst h
    exact Nat.zero_lt_one
  · refine ⟨by decide +kernel, fun h => ?_, fun n h => ?_⟩
    · cases h
    · cases h

theorem test_stocked_named : stocked.pvs.named := ⟨by decide +kernel, by decide +kernel⟩

/-- The lists of `stocked` are in order, and lie within half the range of positions. -/
theorem test_stocked_ordered : stocked.pvs.ordered ∧ stocked.pvs.withinHalf := by
  refine ⟨fun t => ?_, fun t => ⟨500300, ?_⟩⟩
  · cases t
    · exact .cons (by intro y h; simp only [List.mem_singleton] at h; subst h; decide +kernel) (.cons (by simp) .nil)
    · exact .nil
  · cases t <;> decide +kernel

/-- The lists of `stocked` are in order, and have no other. -/
theorem test_stocked_arranged : stocked.pvs.arranged := fun t =>
  ⟨fun ws perm rising => by
    rw [← inStartOrder_eq perm rising]
    cases t <;> decide +kernel, fun _ => rfl⟩

theorem test_running_pending : running.pendingAgrees := fun _ => .inl rfl

/-- StepTakesTheFrontCommand, QueueStaysBoundedAndItsCopyTheHead, RunningPartStaysConfiguredAndWithinTheCap,
PassageOnlyInRunOnLockedForwardTracks, StoreStaysSound, ProfileSelectionStaysConsistent,
TrimBalanceNeverFallsBelowMinusFour, HeldDemandIsTheLastDemand: a step from the states of this section. -/
theorem test_hyp_invariants :
    step { running with pending := [.status] } = .next (after .status running)
      ∧ step { stocked with pending := [.status] } = .next (after .status stocked)
      ∧ step running = .next running := ⟨rfl, rfl, rfl⟩

theorem test_hyp_queue_invariants : (queued running 2).queueBounded ∧ (after .selectAssertion (queued running 2)).copyIsHead := by
  refine ⟨⟨by decide +kernel, by decide +kernel⟩, fun x r h e => ?_⟩
  have h : some (queued running 2).lif.assertion = some x := h
  injection h with h
  subst h
  exact e

/-! ## The statements' hypotheses are met: Control Link -/

theorem test_hyp_SelectAssertion : running.resetHeld = false ∧ running.lif.queue = []
    ∧ (queued running 1).lif.queue = .reply (.motion .ok) :: [] := by decide +kernel

/-- Each code that comes in names one thing, and the first value past its list nothing. -/
theorem test_incoming_codes :
    directionOf 0 = some .forward ∧ directionOf 1 = some .reverse ∧ directionOf 2 = some .unknown ∧ directionOf 3 = none
      ∧ cornerOf 1 = some .fr ∧ cornerOf 2 = some .rl ∧ cornerOf 4 = none ∧ trackOf 1 = some .right ∧ trackOf 2 = none
      ∧ groupOf 3 = some .geometry ∧ groupOf 5 = none ∧ kindOf 6 = some .unknown ∧ kindOf 7 = none
      ∧ profileOf 1 = some .b ∧ profileOf 2 = none := by decide +kernel

theorem test_hyp_FrameFindings : judgeFrame identifyFrame ≠ .malformed := by decide +kernel

theorem test_hyp_FramesAreTaken : judgeFrame { bytes := [0xB6, 0x01, 0x00, 0x00] } = .malformed
    ∧ judgeFrame { bytes := [0xB6, 0x01, 0x00, 0x00, 0x00] } = .crcError
    ∧ judgeFrame identifyFrame = .wellFormed .identify
    ∧ judgeFrame { identifyFrame with strayBits := 1 } = .malformed := by decide +kernel

theorem test_hyp_FrameOfARequest : kindOfRequest (.preview bumpRecord) = some .preview
    ∧ (Instr.preview bumpRecord).wellFormed = true
    ∧ (frameOf (.preview bumpRecord)).map judgeFrame = some (.wellFormed (.preview bumpRecord)) := by decide +kernel

theorem test_hyp_FrameArrival :
    let s := { running with pvs := { running.pvs with preview := .suspended } }
    s.mdc.mode = .run ∧ s.pvs.preview = .suspended ∧ ¬(ready.mdc.mode = .run ∧ ready.pvs.preview = .suspended)
      ∧ 32 ≤ (queued running 32).lif.queue.length ∧ judgeFrame identifyFrame = .wellFormed .identify
      ∧ kindOfRequest .identify ≠ some .fetch ∧ kindOfRequest .identify ≠ some .restart := by decide +kernel

theorem test_hyp_Fetch :
    let s := after .selectAssertion (queued running 1)
    (after .selectAssertion running).lif.exchange = some running.lif.assertion ∧ running.lif.assertion.copy = none
      ∧ s.lif.exchange = some (queued running 1).lif.assertion
      ∧ (queued running 1).lif.assertion.copy = some (.reply (.motion .ok))
      ∧ (Record.reply (.motion .ok)).body.length ≤ (List.replicate 1 (0 : Byte)).length
      ∧ ([] : List Byte).length < (Record.reply (.motion .ok)).body.length
      ∧ (after (.fetch [0]) s).lif.queue = [] ∧ (after (.fetch []) s).lif.queue.length = 1 := by decide +kernel

theorem test_hyp_Status : running.delivers ∧ (queued running 31).delivers ∧ ¬(queued running 32).delivers := by decide +kernel

theorem test_hyp_Admission :
    let s := { running with mdc := { running.mdc with marker := (after .standby running).mdc.marker } }
    running.resetHeld = false ∧ (queued s 27).lif.queue.length < 28
      ∧ markerOrder = [.fault .fl, .fault .fr, .fault .rl, .fault .rr] ++ .mode :: markerOrder.drop 5
      ∧ (∀ n ∈ [Marker.fault .fl, .fault .fr, .fault .rl, .fault .rr], (queued s 27).waiting n = none)
      ∧ (queued s 27).waiting .mode = s.mdc.marker.map .mode ∧ s.mdc.marker.isSome = true
      ∧ (after .admission (queued s 27)).lif.queue.length = 28 ∧ (after .admission (queued s 28)) = queued s 28 := by
  decide +kernel

/-- The PASSAGE report of the one SPENT slot, the oldest; its admission frees the slot, and a CONDITION report's makes its
bit REPORTED. -/
theorem test_hyp_Admission_passage :
    let x := { bumpSlot 0 .spent with spentPlace := some 0 }
    let s := running.setCc .fl { running.cc.fl with bits := running.cc.fl.bits.set .gap (.waiting OriginRecord.empty) }
    x ∈ stocked.pvs.held ∧ (∀ y ∈ stocked.pvs.held, y ≠ x → y.spentPlace = none)
      ∧ (∀ x ∈ running.pvs.held, x.spentPlace = none) ∧ running.waiting .passage = none
      ∧ stocked.waiting .passage = some (.passage x.passageReport)
      ∧ (after .admission stocked).lif.queue = [.report (.passage x.passageReport)]
      ∧ (after .admission stocked).pvs.held.map (fun y => y.segment.tag) = [521]
      ∧ (after .admission s).cc.fl.bits.gap = .reported
      ∧ (after .admission s).lif.queue = [.report (.condition { corner := .fl, bit := .gap, origin := OriginRecord.empty })] := by
  decide +kernel

theorem test_hyp_SilenceExpiry :
    let s := running.setLif { running.lif with silence := .running 100 }
    s.lif.silence ≠ .stopped ∧ s.mdc.mode = .run ∧ s.pvs.preview = .active
      ∧ ¬(({ s with pvs := { s.pvs with preview := .suspended } } : State).mdc.mode = .run ∧ PreviewState.suspended = .active) := by
  decide +kernel

/-! ## Configuration Groups -/

theorem test_hyp_SetGroup : ready.delivers ∧ RequestKind.permits .setGroup (profileA.bytes.length + 1) = true
    ∧ 4 < (5 : Byte).toNat ∧ groupOf 0 = some .valveMaps ∧ groupOf 4 = some .limits := by decide +kernel

theorem test_hyp_ContentsReadBack :
    ready.readContents .valveMaps (GroupContents.valveMaps { front := .shared valveMap, rear := .shared valveMap }).bytes
        = some (.valveMaps { front := .shared valveMap, rear := .shared valveMap })
      ∧ ready.readContents .profileA profileA.bytes = some (.profile profileA)
      ∧ ready.readContents .profileB profileB.bytes = some (.profile profileB)
      ∧ ready.readContents .geometry geometry.bytes = some (.geometry geometry)
      ∧ ready.readContents .limits limits.bytes = some (.limits limits) := by decide +kernel

/-- Contents are accepted where every check passes; a combine mode of 3, a flags byte of 4, and maps too many or too few
are refused. -/
theorem test_hyp_Contents_accepted :
    let flagged := { geometry with separateFront := true }
    let s := ready.setCfs { ready.cfs with geometry := some flagged }
    let v : ValveMaps := { front := .separate valveMap valveMap, rear := .shared valveMap }
    ready.mapCap = 1400 ∧ profileA.passes = true ∧ geometry.passes = true ∧ limits.passes ready.cfs.variant = true
      ∧ (∀ c ∈ corners, -32768 ≤ (geometry.corners.get c).low ∧ (geometry.corners.get c).high ≤ 32767)
      ∧ s.readContents .valveMaps (GroupContents.valveMaps v).bytes = some (.valveMaps v)
      ∧ ready.readContents .valveMaps (GroupContents.valveMaps v).bytes = none
      ∧ ready.readContents .profileA (profileA.bytes.set 15 3) = none
      ∧ ready.readContents .geometry (geometry.bytes.set 38 4) = none := by decide +kernel

theorem test_hyp_ReadGroup : 4 < (5 : Byte).toNat ∧ (4 : Byte).toNat ≤ 4
    ∧ (after (.readGroup 1) running).lif.queue = [.reply (.readGroup .ok 1 false true (some (.profile profileA)))] := by
  decide +kernel

theorem test_hyp_SetLocks :
    let s := running.setCfs { running.cfs with locks := { running.cfs.locks with valveMaps := true } }
    32 ≤ (32 : Byte).toNat ∧ (31 : Byte).toNat < 32 ∧ s.cfs.locks.get .valveMaps = true ∧ s.mdc.mode ≠ .config
      ∧ (0 : Byte).getLsbD 0 = false ∧ ready.mdc.mode = .config ∧ running.cfs.locks.get .valveMaps = false := by
  decide +kernel

theorem test_hyp_WriteVariant :
    let s := ready.setCfs { ready.cfs with variant := none }
    let t := s.setCfs { s.cfs with locks := { s.cfs.locks with valveMaps := true } }
    ready.cfs.variant ≠ none ∧ s.delivers ∧ s.cfs.variant = none ∧ s.mdc.mode = .config ∧ running.mdc.mode ≠ .config
      ∧ s.cfs.mapsExceed 1200 = true ∧ t.cfs.locks.valveMaps = true ∧ s.cfs.mapsExceed 1400 = false
      ∧ s.cfs.thresholdBelow 1600 = true ∧ s.cfs.thresholdBelow 1400 = false
      ∧ (after (.writeVariant 7 1400) s).cfs.variant = some { code := 7, cap := 1400 }
      ∧ (after (.writeVariant 7 1300) s).cfs.variant = none ∧ (after (.writeVariant 7 1200) t).cfs.variant = none := by
  decide +kernel

theorem test_hyp_Protected : exec (.update .fl 0) running = .next (after (.update .fl 0) running)
    ∧ running.groupInUse .profileA = true ∧ running.groupInUse .profileB = false ∧ ready.groupInUse .profileA = false
    ∧ (running.setCfs { running.cfs with pendingProfile := some .b }).groupInUse .profileB = true ∧ takenAs (.update .fl 0) ≠ .setLocks 0 := by
  exact ⟨rfl, by decide +kernel⟩

/-! ## Operating Modes -/

theorem test_hyp_Start :
    let unwritten := ready.setCfs { ready.cfs with variant := none }
    running.delivers ∧ running.mdc.mode ≠ .config ∧ running.mdc.mode ≠ .standby ∧ State.reset.delivers
      ∧ State.reset.cfs.contents .valveMaps = none ∧ ready.allGroupsSet = true ∧ unwritten.cfs.variant = none
      ∧ unwritten.allGroupsSet = true ∧ ready.cfs.variant ≠ none ∧ ready.mdc.mode = .config
      ∧ (after .start ready).mdc.mode = .starting ∧ (after .start ready).vd.rr.state = .checking := by decide +kernel

theorem test_hyp_Standby :
    let s := running.setCfs { running.cfs with pendingProfile := some .b }
    ready.mdc.mode = .config ∧ s.mdc.mode = .run ∧ s.cfs.pendingProfile = some .b ∧ running.cfs.pendingProfile = none
      ∧ (after .standby s).cfs.active = .b ∧ (after .standby s).mdc.mode = .standby := by decide +kernel

theorem test_hyp_Restart : running.resetHeld = false ∧ (after .restart (queued running 32)).lif.queue = [.reply (.restart .config)] := by
  decide +kernel

/-- An exchange in progress is dropped at a full reset, and FETCH at the release of select then finds an empty queue
(assumption logs 6 and 36). -/
theorem test_full_reset_drops_the_exchange :
    let cut := after .resetRelease (after (.fullReset .inputAsserted) (after .selectAssertion (queued running 2)))
    cut.lif.exchange = none ∧ cut.lif.queue = [] ∧ (after (.fetch [0]) cut).lif.previous = .accepted := by decide +kernel

theorem test_hyp_FullReset :
    (after (.fullReset .inputAsserted) running).resetHeld = true
      ∧ after .status (after (.fullReset .inputAsserted) running) = after (.fullReset .inputAsserted) running
      ∧ Instr.status ≠ .resetRelease ∧ after .resetRelease (after (.fullReset .inputAsserted) running) = State.reset := by
  decide +kernel

/-! ## Track Odometry and Motion -/

theorem test_hyp_Motion :
    2 < (3 : Byte).toNat ∧ directionOf 0 = some .forward ∧ directionOf 2 = some .unknown
      ∧ lockedTod.direction = .forward ∧ lockedTod.direction ≠ .reverse ∧ lockedTod.lock = .locked
      ∧ Tod.reset.direction ≠ .forward ∧ Tod.reset.lock = .unlocked
      ∧ ({ lockedTod with lock := .acquiring } : Tod).direction ≠ .unknown := by decide +kernel

theorem test_hyp_FrontPulse : ready.mdc.mode = .config ∧ running.mdc.mode = .run
    ∧ (running.tod.get .left).direction = .forward ∧ Tod.reset.direction ≠ .forward := by decide +kernel

theorem test_hyp_FrontPulseEvaluation :
    Tod.reset.lock = .unlocked ∧ inBand (some 1000) (some 2000) = true ∧ inBand (some 1000) (some 2001) = false
      ∧ inBand (some 1000) (some 500) = true ∧ inBand (some 1000) (some 499) = false
      ∧ 4980365 + 19635 = 5000 * 1000 ∧ 4980364 + 19635 < 5000 * 1000
      ∧ 5000000 ≤ 4850000 + geometry.slipLimit ∧ 4849999 + geometry.slipLimit < 5000000
      ∧ 6 + 1 < geometry.lockCount ∧ geometry.lockCount ≤ 7 + 1 := by decide +kernel

theorem test_hyp_RearPulse :
    ready.mdc.mode = .config ∧ running.mdc.mode = .run ∧ (running.tod.get .left).direction = .forward
      ∧ (running.tod.get .left).lock = .locked ∧ 5130200 + 19800 ≤ 5000 * 1000 + geometry.slipLimit
      ∧ 5000 * 1000 + geometry.slipLimit < 5130201 + 19800 := by decide +kernel

theorem test_hyp_Standstill : (running.tod.get .left).standstill = .running 500 ∧ (running.tod.get .left).lock ≠ .acquiring
    ∧ ({ lockedTod with lock := .acquiring } : Tod).standstill = .running 500 := by decide +kernel

/-! ## The Preview Store and Segment Passage -/

theorem test_hyp_Preview_checks :
    let r := bumpRecord
    running.delivers ∧ r.samples.length ≤ 8 ∧ ready.mdc.mode ≠ .run
      ∧ (after (.preview r) ready).lif.queue = [.reply (.preview .mode 520 0 [])]
      ∧ ({ running.pvs with preview := PreviewState.suspended } : Store).preview ≠ .active
      ∧ trackOf 0 = some .left ∧ trackOf 2 = none ∧ (ready.tod.get .left).lock ≠ .locked
      ∧ segmentOf { r with tag := 0 } = none ∧ segmentOf r = some bump
      ∧ segmentOf { r with length := 9 } = none ∧ (segmentOf { r with length := 10 }).isSome = true
      ∧ (segmentOf { r with length := 2000 }).isSome = true ∧ segmentOf { r with length := 2001 } = none
      ∧ (segmentOf { r with amplitude := 100 }).isSome = true ∧ segmentOf { r with amplitude := 101 } = none
      ∧ segmentOf { r with options := 8 } = none ∧ segmentOf { r with options := 4 } = none
      ∧ difference (500000 + 250000) 500000 = 250000 ∧ difference 499999 500000 = 4294967295 := by decide +kernel

theorem test_hyp_Preview_places :
    let g := { bump with start := 500801 }
    running.judgeSegment { bump with start := 500700 } = .refused .late
      ∧ running.judgeSegment { bump with start := 500701 } = .accepted { bump with start := 500701 } none
      ∧ (holding .spent).judgeSegment { g with start := 500701 } = .refused .dupTag
      ∧ (holding .spent).judgeSegment { g with tag := 9, start := 500699 } = .refused .late
      ∧ stocked.judgeSegment { g with tag := 9, start := 519900 } = .accepted { g with tag := 9, start := 519900 } none
      ∧ (after (.preview { bumpRecord with tag := 9, start := 519900 }) stocked).lif.queue
        = [.reply (.preview .ok 9 0 [521])] := by decide +kernel

/-- R28: a start that is not ahead of the front corner is LATE, though a lead reaches past it around the range. -/
theorem test_late_behind_the_front :
    running.judgeSegment { bump with start := 500000 + 0x80000000 } = .refused .late
      ∧ running.judgeSegment { bump with start := 499999 } = .refused .late
      ∧ ({ running with tod := ⟨{ lockedTod with speed := 0 }, lockedTod⟩ } : State).judgeSegment
          { bump with kind := .smooth, start := 500000 } = .refused .late
      ∧ ({ running with tod := ⟨{ lockedTod with speed := 0 }, lockedTod⟩ } : State).judgeSegment
          { bump with kind := .smooth, start := 500001 } = .accepted { bump with kind := .smooth, start := 500001 } none := by
  decide +kernel

/-- A full store: 63 segments on RIGHT that are SPENT, and a PENDING one on LEFT. -/
def full : State :=
  { running with
    pvs :=
      { running.pvs with
        lists := ⟨[bumpSlot 0 .pending],
          List.replicate 63 { bumpSlot 1 .spent with segment := { bump with tag := 7, track := .right } }⟩
        nextSerial := 2 } }

theorem test_hyp_Preview_full :
    full.pvs.held.length = 64 ∧ full.judgeSegment { bump with tag := 9, start := 500701 } = .refused .full
      ∧ ({ full with tod := ⟨{ lockedTod with speed := 0 }, lockedTod⟩ } : State).judgeSegment
          { bump with tag := 9, start := 500101, length := 10 }
        = .accepted { bump with tag := 9, start := 500101, length := 10 } (some (bumpSlot 0 .pending)) := by decide +kernel

theorem test_hyp_Withdraw :
    stocked.delivers ∧ (∀ x ∈ stocked.pvs.held, x.segment.tag ≠ 1)
      ∧ (after (.withdraw 520) stocked).lif.queue = [.reply (.withdraw .late 520)]
      ∧ (after (.withdraw 521) stocked).lif.queue = [.reply (.withdraw .ok 521)]
      ∧ (after (.withdraw 521) stocked).pvs.held.length = 1 := by decide +kernel

theorem test_hyp_Committed :
    exec (.preview bumpRecord) stocked = .next (after (.preview bumpRecord) stocked)
      ∧ (stocked.pvs.held.filter fun x => x.state != .pending).length = 1
      ∧ takenAs (.preview bumpRecord) = .preview bumpRecord := ⟨rfl, by decide +kernel, by decide +kernel⟩

theorem test_hyp_Settle :
    settle 5 [bumpSlot 0 .spent, { bumpSlot 1 .spent with segment := { bump with report := false } }, bumpSlot 2 .pending]
      = ([{ bumpSlot 0 .spent with spentPlace := some 5 }, bumpSlot 2 .pending], 6) := by decide +kernel

/-- A list that has no order by R1: a SPENT segment waits half the range of positions behind, and the two PENDING ones stand on
its two sides in the list, the later one first. -/
def stale (state : SlotState) : List Slot :=
  [{ bumpSlot 2 state with segment := { bump with tag := 522, start := 501000 } },
    { bumpSlot 0 .spent with segment := { bump with start := 500900 + 0x80000000 }, spentPlace := some 0 },
    { bumpSlot 1 state with segment := { bump with tag := 521, start := 500800 } }]

/-- Once the SPENT segment has left such a list, the two others stand in ascending order of start (R21): by the admission of
its report, and as a new segment enters. -/
theorem test_list_regains_its_order :
    let s := { running with pvs := { running.pvs with lists := ⟨stale .pending, []⟩, nextSerial := 3, nextSpent := 1 } }
    let t := after .admission s
    (t.pvs.lists.left.map fun x => x.segment.tag) = [521, 522]
      ∧ ((after (.preview { bumpRecord with tag := 9, start := 502000 }) t).pvs.lists.left.map fun x => x.segment.tag)
        = [521, 522, 9]
      ∧ ((after (.withdraw 522) s).pvs.lists.left.map fun x => x.segment.tag) = [520, 521]
      ∧ ((after (.withdraw 521) s).pvs.lists.left.map fun x => x.segment.tag) = [522, 520] := by decide +kernel

/-- In such a list too, segments that become SPENT together take their places by their starts (R43). -/
theorem test_spent_order_by_start :
    let ascending := (stale .spent).filter (fun x => x.newlySpent && x.segment.report) |>.reverse
    ((settle 5 (stale .spent)).1.map fun x => (x.segment.tag, x.spentPlace)) = [(522, some 6), (520, some 0), (521, some 5)]
      ∧ (settle 5 (stale .spent)).2 = 7 ∧ ((stale .spent).map Slot.serial).Nodup
      ∧ (ascending.map fun x => x.segment.start) = [500800, 501000] := by decide +kernel

/-- In such a list too, the reply to PREVIEW names the superseded tags by their starts (R35). -/
theorem test_superseded_by_start :
    let s := { running with pvs := { running.pvs with lists := ⟨stale .pending, []⟩, nextSerial := 3, nextSpent := 1 } }
    (after (.preview { bumpRecord with tag := 9, start := 500810, length := 1000 }) s).lif.queue
      = [.reply (.preview .ok 9 0 [521, 522])] := by decide +kernel

/-! ## Ride Profiles -/

theorem test_hyp_SelectProfile :
    let s := running.setVd .rr { driveVd with state := .hold }
    let h := running.mapVd fun _ v => { v with state := .hold }
    let p := running.setCfs { running.cfs with pendingProfile := some .b }
    running.delivers ∧ 1 < (2 : Byte).toNat ∧ profileOf 1 = some .b ∧ p.cfs.pendingProfile = some .b
      ∧ (after (.selectProfile 0) p).lif.queue = [.reply (.selectProfile .busy 0 .a (some .b))]
      ∧ (after (.selectProfile 0) running).lif.queue = [.reply (.selectProfile .ok 0 .a none)]
      ∧ (after (.selectProfile 1) ready).cfs.active = .b
      ∧ (after (.selectProfile 1) s).cfs.pendingProfile = some .b ∧ (after (.selectProfile 1) s).cc.rr.followed = .b
      ∧ (after (.selectProfile 1) s).cc.fl.switchReference = .noSegment
      ∧ (after (.selectProfile 1) h).cfs.active = .b
      ∧ (after (.selectProfile 1) { running with mdc := { running.mdc with mode := .safe } }).lif.queue
        = [.reply (.selectProfile .mode 1 .a none)] := by decide +kernel

theorem test_hyp_PreviewDemand : ({ bump with override := some ⟨200, 650⟩ } : Segment).override = some ⟨200, 650⟩
    ∧ bump.override = none := by decide +kernel

/-! ## Corner Control, Update Conditions and Origin Records -/

/-- Update 2 of the example of 05_corner_control.md, and an update of a driver in CHECKING. -/
theorem test_hyp_UpdateInRun :
    let t := after (.update .fl 30) (holding .frontLead)
    (holding .frontLead).resetHeld = false ∧ (holding .frontLead).mdc.mode = .run
      ∧ t.cc.fl.lastDemand = 270 ∧ t.vd.fl.heldDemand = 270 ∧ t.cc.fl.conditions = { rate := true } ∧ t.vd.fl.quiet = false
      ∧ (after (.update .fl 0) running).cc.fl.conditions = { nopv := true }
      ∧ (after (.update .fl 0) (withFl running driveVd.checking)).cc.fl.lastDemand = 150 := by decide +kernel

/-- An update that tells quiet starts a trim that is due, or a pull-in trim; one with a segment in effect does not. -/
theorem test_hyp_UpdateInRun_trim :
    let v : Vd := { driveVd with balance := 2, quiet := false, tracking := .running 10 }
    let trims := fun kind w => ({ w with
      quiet := true, state := .trim, operation := .running 3, tracking := .stopped, trim := some { origin := .drive, kind } } : Vd)
    let w : Vd := { driveVd with pullIn := 3, quiet := false }
    (after (.update .fl 0) (withFl running v)).vd.fl = trims .due v
      ∧ (after (.update .fl 0) (withFl running w)).vd.fl = trims .pullIn w
      ∧ (after (.update .fl 30) (withFl (holding .frontLead) v)).vd.fl.state = .drive := by decide +kernel

/-- The sensor becomes LOST at the third bad sample, and VALID at the tenth good one. -/
theorem test_hyp_UpdateInRun_sensor :
    let s := fun n => running.setCc .fl { running.cc.fl with badRun := n }
    let l := fun n => running.setCc .fl { running.cc.fl with sensor := .lost, goodRun := n }
    (after (.update .fl 2600) (s 1)).cc.fl.sensor = .valid ∧ (after (.update .fl 2600) (s 2)).cc.fl.sensor = .lost
      ∧ (after (.update .fl 0) (l 8)).cc.fl.sensor = .lost ∧ (after (.update .fl 0) (l 9)).cc.fl.sensor = .valid
      ∧ (after (.update .fl 0) (l 8)).cc.fl.conditions = { subst := true, nopv := true }
      ∧ (after (.update .fl 500) (holding .frontOn)).pvs.lists.left.map (fun x => x.front.peakVelocity) = [some 5000] := by
  decide +kernel

/-- The first enabled bit captures the origin with the demand of the update. -/
theorem test_hyp_UpdateInRun_origin :
    let s := running.setCc .fl { running.cc.fl with enabled := { PerBit.noBits with gap := true } }
    let t := after (.update .fl 0) s
    t.cc.fl.bits.gap = .waiting t.cc.fl.origin ∧ t.cc.fl.origin.finalDemand = some 150
      ∧ t.cc.fl.origin.reactiveDemand = some 150 ∧ t.cc.fl.origin.previewDemand = none
      ∧ t.cc.fl.origin.position = some 500000 ∧ t.cc.fl.origin.driverState = some .drive
      ∧ t.cc.fl.origin.conditions = some t.cc.fl.conditions := by decide +kernel

/-- The part in RUN with a switch to B pending, which every corner but FL has made. -/
def switching : State :=
  { running with
    cfs := { running.cfs with pendingProfile := some .b }
    cc := PerCorner.of fun c => { running.cc.get c with followed := if c = .fl then .a else .b } }

/-- FL is the last to switch: at its boundary, at its fault, at its entry to HOLD. -/
theorem test_hyp_switch_completes :
    let trim : Vd := { driveVd with state := .trim, balance := 1, trim := some { origin := .drive, kind := .due } }
    let done := fun t : State => t.cfs.active = .b ∧ t.cfs.pendingProfile = none ∧ t.cc.fl.followed = .b
      ∧ t.cfs.profileMarker = some { active := .b, previous := .a, positions := ⟨some 500000, none, none, none⟩ }
    (∀ e ∈ corners, e ≠ .fl → (switching.cc.get e).followed = .b) ∧ switching.cc.fl.followed ≠ .b
      ∧ done (after (.update .fl 0) switching) ∧ done (after (.currentSample .fl 1601) switching)
      ∧ done (after (.trimCompletion .fl 454) (withFl switching trim)) := by decide +kernel

theorem test_hyp_UpdateInRun_switch :
    let s := (running.setCfs { running.cfs with pendingProfile := some .b })
    s.cfs.pendingProfile = some .b ∧ s.cc.fl.followed ≠ .b ∧ s.pvs.inEffect .fl = none
      ∧ (after (.update .fl 0) s).cc.fl.followed = .b ∧ (after (.update .fl 0) s).cfs.active = .a := by decide +kernel

theorem test_hyp_Demand : (150 : Nat) + 120 < 271 ∧ (150 : Nat) + 120 < 391 ∧ profileA.floor ≤ profileA.ceiling
    ∧ (profileA.rowFor bump).combine = .max ∧ (profileA.rowFor { bump with kind := .stepDown }).combine = .replace
    ∧ (computeDemand profileA .front 0 none none 900).final = 850 := by decide +kernel

theorem test_hyp_UpdateOutsideRun :
    let s := ready.setCc .fl { ready.cc.fl with missNotice := true, enabled := { PerBit.noBits with gap := true } }
    s.mdc.mode ≠ .run ∧ (s.vd.get .fl).state ≠ .drive ∧ (after (.update .fl 0) s).cc.fl.missNotice = false
      ∧ (after (.update .fl 0) s).cc.fl.bits.gap.isSet = true ∧ (after (.update .fl 0) s).cc.fl.origin.role = some .front := by
  decide +kernel

theorem test_hyp_Accrued :
    let t := after (.update .fl 0) running
    exec .status t = .next (after .status t) ∧ (t.cc.fl.bits.get .gap).isSet = true ∧ takenAs .status ≠ .restart :=
  ⟨rfl, by decide +kernel, by decide +kernel⟩

theorem test_hyp_SetReporting :
    let t := after (.update .fl 0) running
    3 < (4 : Byte).toNat ∧ cornerOf 3 = some .rr ∧ 32 ≤ (32 : Byte).toNat ∧ (31 : Byte).toNat < 32
      ∧ t.cc.fl.bits.gap = .unreported ∧ (after (.setReporting 0 2) t).cc.fl.bits.gap = .waiting OriginRecord.empty := by
  decide +kernel

theorem test_hyp_ClearConditions :
    let t := after (.update .fl 0) running
    running.delivers ∧ (after (.clearConditions 0 2) t).cc.fl.bits.gap = .clear
      ∧ (after (.clearConditions 0 1) t).cc.fl.bits.gap = .unreported
      ∧ (after (.clearConditions 4 0) t).cc = t.cc ∧ (after (.clearConditions 0 32) t).cc = t.cc := by decide +kernel

theorem test_hyp_ReadOrigin : 3 < (4 : Byte).toNat ∧ (3 : Byte).toNat ≤ 3 ∧ running.delivers := by decide +kernel

/-! ## Valve Drivers, Faults and Escalation -/

/-- A part with separate maps at the front and one map at the rear. -/
def separate : State :=
  running.setCfs
    { running.cfs with
      geometry := some { geometry with separateFront := true }
      valveMaps := some
        { front := .separate { valveMap with holdCurrent := 601 } { valveMap with holdCurrent := 602 }
          rear := .shared { valveMap with holdCurrent := 603 } } }

/-- Each corner reads its own map, and the corners of the rear axle the map of their axle. -/
theorem test_separate_maps :
    corners.map (fun c => (separate.map c).holdCurrent) = [601, 602, 603, 603]
      ∧ separate.geometry = { geometry with separateFront := true } ∧ separate.limits = limits
      ∧ corners.map (fun c => (after (.trimCompletion c 454) (separate.setVd c
          { driveVd with state := .trim, balance := 1, trim := some { origin := .drive, kind := .due } })).vd.get c |>.setpoint)
        = [601, 602, 603, 603] := by decide +kernel

theorem test_separate_contents : separate.contentsPass := by
  refine ⟨?_, ?_, ?_, ?_, ?_, ?_⟩
  · intro m h
    injection h with h
    subst h
    exact ⟨{ geometry with separateFront := true }, rfl, rfl, rfl, by decide +kernel⟩
  all_goals
    intro x h
    injection h with h
    subst h
    decide +kernel

theorem test_hyp_Map : valveMap.passes 1400 = true ∧ valveMap.passes 1399 = false ∧ valveMap.shortLimit ≤ valveMap.openLimit
    ∧ valveMap.points = [] ++ ⟨0, 1400⟩ :: ⟨125, 1300⟩ :: valveMap.points.drop 2
    ∧ valveMap.classify 149 = .short ∧ valveMap.classify 150 = .ok ∧ valveMap.classify 900 = .ok
    ∧ valveMap.classify 901 = .openCircuit := by decide +kernel

theorem test_hyp_TrimAhead :
    let busy := withFl running { driveVd with quiet := false }
    let low := withFl running { driveVd with balance := -3 }
    let held := withFl running { driveVd with state := .hold }
    running.delivers ∧ cornerOf 4 = none ∧ cornerOf 0 = some .fl ∧ ready.mdc.mode ≠ .run
      ∧ (after (.trimAhead 0 0) running).lif.queue = [.reply (.trimAhead .range 0 0 0 0)]
      ∧ (after (.trimAhead 0 5) running).lif.queue = [.reply (.trimAhead .range 0 5 0 0)]
      ∧ (after (.trimAhead 0 1) held).lif.queue = [.reply (.trimAhead .mode 0 1 0 0)]
      ∧ (after (.trimAhead 0 2) low).lif.queue = [.reply (.trimAhead .range 0 2 (-3) 0)]
      ∧ (after (.trimAhead 0 1) low).vd.fl.state = .trim ∧ (after (.trimAhead 0 4) busy).vd.fl.pullIn = 4
      ∧ (after (.trimAhead 0 4) busy).vd.fl.state = .drive := by decide +kernel

theorem test_hyp_Recheck :
    let s := after (.currentSample .fl 1601) running
    let spent := withFl s { s.vd.fl with retryCount := 3 }
    s.vd.fl.state = .faulted ∧ s.vd.fl.retryCount = 1 ∧ running.vd.fl.state ≠ .faulted ∧ spent.vd.fl.retryCount = 3
      ∧ (after (.recheck 0) s).vd.fl.state = .checking ∧ (after (.recheck 0) s).mdc.faultedCount = 0
      ∧ (after (.recheck 0) spent).lif.queue = [.reply (.recheck .retries 0 (some .faulted) 3)]
      ∧ (after (.recheck 0) running).lif.queue = [.reply (.recheck .state 0 (some .drive) 0)]
      ∧ (after (.recheck 4) ready).lif.queue = [.reply (.recheck .mode 4 none 0)] := by decide +kernel

theorem test_hyp_CurrentSamples :
    (after (.currentSample .fl 1600) running).vd.fl.state = .drive ∧ (after (.currentSample .fl 1601) running).vd.fl.state = .faulted
      ∧ (after (.currentSample .fl 1371) running).vd.fl.tracking = .running 10
      ∧ (after (.currentSample .fl 1370) running).vd.fl.tracking = .stopped
      ∧ (after (.currentSample .fl 1170) running).vd.fl.tracking = .stopped
      ∧ (after (.currentSample .fl 1169) running).vd.fl.tracking = .running 10
      ∧ (after (.currentSample .fl 3000) ready).vd.fl.measured = 2500
      ∧ ({ driveVd with tracking := .running 10 } : Vd).tracking ≠ .stopped := by decide +kernel

theorem test_hyp_Fault :
    let once := after (.currentSample .fl 1601) running
    let twice := after (.currentSample .rr 1601) once
    running.mdc.faultedCount = 0 ∧ once.mdc.faultedCount = 1 ∧ once.mdc.mode = .run ∧ twice.mdc.mode = .safe
      ∧ twice.vd.fl.state = .faulted ∧ twice.vd.rl.state = .released ∧ twice.mdc.faultedCount = 2
      ∧ running.cc.fr.previousHeight = some 0 ∧ once.cc.fr.previousHeight = some 0
      ∧ corners.map (fun c => (twice.cc.get c).previousHeight) = [none, none, none, none]
      ∧ twice.vd.rr.quiet = true ∧ twice.mdc.supersededCount = 0 := by decide +kernel

/-- The part in STARTING, with three checks ended. -/
def lastCheck (ends : PerCorner (Option CheckResult)) : State :=
  let s := after .start ready
  { s with
    mdc := { s.mdc with checkEnds := ends }
    vd := ⟨s.vd.fl, s.vd.fr.atRest .armed, s.vd.rl.atRest .armed, s.vd.rr.atRest .armed⟩ }

theorem test_hyp_StartChecks :
    let one := lastCheck ⟨none, some .armed, some .armed, some .faulted⟩
    let two := lastCheck ⟨none, some .armed, some .faulted, some .faulted⟩
    let some3 := lastCheck ⟨none, some .armed, none, some .armed⟩
    one.mdc.mode = .starting ∧ (one.vd.get .fl).state = .checking ∧ one.cfs.pendingProfile = none
      ∧ (after (.checkCompletion .fl 350) one).mdc.mode = .run ∧ (after (.checkCompletion .fl 350) one).vd.fl.state = .drive
      ∧ (after (.checkCompletion .fl 454) one).vd.fl.state = .hold
      ∧ (after (.checkCompletion .fl 350) two).mdc.mode = .starting
      ∧ (after (.checkCompletion .fl 350) some3).vd.fl.state = .armed
      ∧ (after (.checkCompletion .fl 149) some3).vd.fl.state = .faulted
      ∧ (after (.checkCompletion .fl 901) some3).vd.fl.state = .faulted := by decide +kernel

theorem test_starting_pending (ends : PerCorner (Option CheckResult)) : (lastCheck ends).pendingAgrees :=
  fun h => absurd rfl h

/-- A fault ends a check in STARTING: not the fourth, and the fourth. -/
theorem test_hyp_StartChecks_fault :
    let some3 := lastCheck ⟨none, some .armed, none, some .armed⟩
    let last := lastCheck ⟨none, some .armed, some .armed, some .armed⟩
    some3.mdc.faultedCount = 0 ∧ (after (.currentSample .fl 1601) some3).mdc.mode = .starting
      ∧ (after (.currentSample .fl 1601) some3).mdc.checkEnds.fl = some .faulted
      ∧ last.cfs.pendingProfile = none ∧ (after (.currentSample .fl 1601) last).mdc.mode = .run
      ∧ (after (.currentSample .fl 1601) last).vd.fl.state = .faulted
      ∧ (after (.currentSample .fl 1601) last).vd.fr.state = .drive := by decide +kernel

theorem test_hyp_RecheckEnds :
    let s := withFl running driveVd.checking
    s.mdc.mode = .run ∧ (s.vd.get .fl).state = .checking
      ∧ (after (.checkCompletion .fl 453) s).vd.fl.state = .drive ∧ valveMap.temperatureOf 453 = 149
      ∧ (after (.checkCompletion .fl 454) s).vd.fl.state = .hold ∧ valveMap.temperatureOf 454 = 150
      ∧ (after (.checkCompletion .fl 149) s).vd.fl.state = .faulted
      ∧ (after (.checkCompletion .fl 901) s).vd.fl.state = .faulted := by decide +kernel

theorem test_hyp_TrimCompletion :
    let s := fun o k => withFl running { driveVd with state := .trim, balance := 1, trim := some { origin := o, kind := k } }
    ((s .drive .due).vd.get .fl).state = .trim
      ∧ ((s .drive .due).vd.get .fl).trim = some { origin := .drive, kind := .due }
      ∧ (after (.trimCompletion .fl 453) (s .drive .due)).vd.fl.state = .drive
      ∧ (after (.trimCompletion .fl 454) (s .drive .pullIn)).vd.fl.state = .hold
      ∧ (after (.trimCompletion .fl 418) (s .hold .due)).vd.fl.state = .hold ∧ valveMap.temperatureOf 418 = 120
      ∧ (after (.trimCompletion .fl 417) (s .hold .due)).vd.fl.state = .drive ∧ valveMap.temperatureOf 417 = 119
      ∧ (after (.trimCompletion .fl 149) (s .drive .due)).vd.fl.state = .faulted
      ∧ (after (.trimCompletion .fl 901) (s .drive .due)).vd.fl.state = .faulted := by decide +kernel

theorem test_hyp_TrimTimer :
    (running.vd.get .fl).trimTimer = .running 200
      ∧ (after (.trimTimerExpiry .fl) (withFl running { driveVd with quiet := false })).vd.fl.state = .drive
      ∧ (after (.trimTimerExpiry .fl) (withFl running { driveVd with balance := -1, pullIn := 1 })).vd.fl.trim
        = some { origin := .drive, kind := .pullIn }
      ∧ (after (.trimTimerExpiry .fl) (withFl running { driveVd with state := .hold })).vd.fl.trim
        = some { origin := .hold, kind := .due }
      ∧ (after (.trimTimerExpiry .fl) (withFl running { driveVd with temperature := some 120 })).vd.fl.trimTimer
        = .running 100 := by decide +kernel

end Sys2Proof.Tests
end

section
/-! What the events of the odometers do (chapter 01), one equation per case, and the statements of the family that they
settle. -/

namespace Sys2Proof.Machine

/-! ## Writes of one odometer, and the modes that count -/

@[simp] theorem State.setTod_setTod (s : State) (t : Track) (o p : Tod) : (s.setTod t o).setTod t p = s.setTod t p := by
  simp [State.setTod]

theorem PartMode.counting_iff (m : PartMode) : m.counting = true ↔ m = .starting ∨ m = .run ∨ m = .safe := by
  cases m <;> simp [PartMode.counting]

/-! ## MOTION (R7, R8) -/

theorem directionOf_of_two_lt {b : Byte} (h : 2 < b.toNat) : directionOf b = none := by
  obtain ⟨not0, not1, not2⟩ : b ≠ 0 ∧ b ≠ 1 ∧ b ≠ 2 := by bv_omega
  rw [directionOf, if_neg not0, if_neg not1, if_neg not2]

/-- A delivered MOTION is judged, and its reply placed. -/
theorem exec_motion {s : State} (h : s.delivers) (b : Byte) :
    exec (.motion b) s = .next ((judgeMotion b s.delivered).1.place (.reply (judgeMotion b s.delivered).2)) :=
  congrArg Host.Outcome.next (State.takeRequest_delivers h (judgeMotion b))

theorem Direction.lossCause_of_ne_forward {d : Direction} (h : d ≠ .forward) :
    d.lossCause = some (if d = .reverse then .reverse else .directionUnknown) := by
  cases d with
  | forward => exact absurd rfl h
  | reverse => rfl
  | unknown => rfl

section Direction

variable {s : State} {d : Direction} {t : Track}

theorem State.giveDirection_same (h : (s.tod.get t).direction = d) : s.giveDirection d t = s := by
  simp [State.giveDirection, h]

theorem State.giveDirection_kept (h : (s.tod.get t).direction ≠ d)
    (k : d = .forward ∨ (s.tod.get t).lock = .unlocked) :
    s.giveDirection d t = s.setTod t { s.tod.get t with direction := d } := by
  rcases k with rfl | k
  · simp [State.giveDirection, h, Direction.lossCause]
  · cases d <;> simp [State.giveDirection, h, k, Direction.lossCause]

theorem State.giveDirection_acquiring (h : (s.tod.get t).direction ≠ d) (away : d ≠ .forward)
    (k : (s.tod.get t).lock = .acquiring) :
    s.giveDirection d t = s.setTod t { s.tod.get t with direction := d, lock := .unlocked, runCount := 0 } := by
  simp [State.giveDirection, h, k, Direction.lossCause_of_ne_forward away]

theorem State.giveDirection_locked (h : (s.tod.get t).direction ≠ d) (away : d ≠ .forward)
    (k : (s.tod.get t).lock = .locked) :
    s.giveDirection d t = (s.setTod t { s.tod.get t with direction := d }).loseLock t
      (if d = .reverse then .reverse else .directionUnknown) := by
  simp [State.giveDirection, h, k, Direction.lossCause_of_ne_forward away]

end Direction

/-- The lock is lost by one write of the odometer and a flush of its track. -/
theorem State.loseLock_setTod (s : State) (t : Track) (o : Tod) (cause : LockCause) :
    (s.setTod t o).loseLock t cause = (s.setTod t (o.leaveLocked t cause)).setPvs (s.pvs.flush t) := by
  simp [State.loseLock]

/-- Settles O26: the request by R191 and its judgement, the direction by the lock state of the track. -/
theorem motionGivesTheDirectionToBothTracks : Obligations.MotionGivesTheDirectionToBothTracks := by
  refine ⟨fun s b free => ⟨fun range => ?_, fun d valid => ?_⟩,
    fun s d t => ⟨State.giveDirection_same, fun h => ⟨?_, ?_, ?_⟩⟩⟩
  · rw [exec_motion free]
    simp [judgeMotion, directionOf_of_two_lt range]
  · rw [exec_motion free]
    simp [judgeMotion, valid, tracks]
  · exact State.giveDirection_kept h
  · exact State.giveDirection_acquiring h
  · intro away locked
    rw [State.giveDirection_locked h away locked, State.loseLock_setTod]
    rfl

/-! ## Front pulse (R4, R5, R15) -/

theorem Tod.intervalAt_eq (o : Tod) (time : Nat) :
    o.intervalAt time = o.previousTime.map fun previous => max 1 (time - previous) := by
  unfold Tod.intervalAt
  congr 1
  funext previous
  split <;> omega

theorem speedOf_eq (length : Nat) (interval : Option Nat) :
    speedOf length interval = match interval with
      | none => 0
      | some i => min 100000 (length * 1000 / i) := by
  cases interval with
  | none => rfl
  | some i =>
    by_cases fast : Config.maxSpeed < length * 1000 / i
    · exact (if_pos fast).trans (Nat.min_eq_left (Nat.le_of_lt fast)).symm
    · exact (if_neg fast).trans (Nat.min_eq_right (Nat.not_lt.1 fast)).symm

/-- A front pulse, while the reset input is not held. -/
theorem exec_frontPulseArrival {s : State} (free : s.resetHeld = false) (t : Track) (time : Nat) :
    exec (.frontPulseArrival t time) s
      = .next (if s.mdc.mode.counting then s.takeFrontPulse t time else s) :=
  congrArg Host.Outcome.next (State.unlessHeld_free free _)

theorem State.takeFrontPulse_forward {s : State} {t : Track} (h : (s.tod.get t).direction = .forward) (time : Nat) :
    s.takeFrontPulse t time =
      ((s.setTod t (((s.tod.get t).timed (s.geometry.pulses.get t).front time).advanced
        (s.geometry.pulses.get t).front)).handAdvance t).evaluateLock t (s.tod.get t).lastInterval := by
  simp only [State.takeFrontPulse, h, if_true]

theorem State.takeFrontPulse_away {s : State} {t : Track} (h : (s.tod.get t).direction ≠ .forward) (time : Nat) :
    s.takeFrontPulse t time = s.setTod t ((s.tod.get t).timed (s.geometry.pulses.get t).front time) := by
  simp only [State.takeFrontPulse, h, if_false]

/-- Settles O27: the timing is that of R4 by `Tod.intervalAt_eq` and `speedOf_eq`, and the advance that of R5. -/
theorem frontPulseIsTimedAndAdvances : Obligations.FrontPulseIsTimedAndAdvances := by
  intro s t time free o length interval speed timed advanced
  have timing : o.timed length time = timed := by
    unfold Tod.timed
    rw [speedOf_eq, Tod.intervalAt_eq]
    rfl
  rw [exec_frontPulseArrival free]
  refine ⟨fun idle => ?_, fun counts => ?_⟩
  · rcases idle with m | m <;> simp [m, PartMode.counting]
  · rw [if_pos ((PartMode.counting_iff _).2 counts)]
    refine ⟨fun away => ?_, fun ahead => ?_⟩
    · rw [State.takeFrontPulse_away away, timing]
    · rw [State.takeFrontPulse_forward ahead, timing]
      rfl

/-! ## The evaluation for lock and slip (R9, R10, R13) -/

theorem inBand_iff {reference interval : Option Nat} :
    inBand reference interval = true
      ↔ reference = none ∨ interval = none
        ∨ ∃ r i, reference = some r ∧ interval = some i ∧ r ≤ 2 * i ∧ i ≤ 2 * r := by
  cases reference <;> cases interval <;> simp [inBand]

theorem slipped_iff {g : Geometry} {front rear : Nat} :
    slipped g front rear = true ↔ rear + g.slipLimit < front ∨ front + g.slipLimit < rear := by
  simp only [slipped, Bool.or_eq_true, decide_eq_true_iff]
  omega

section Evaluation

variable {s : State} {t : Track} {reference : Option Nat}

theorem State.evaluateLock_unlocked (h : (s.tod.get t).lock = .unlocked) :
    s.evaluateLock t reference = s.setTod t { s.tod.get t with lock := .acquiring, runCount := 1 } := by
  simp [State.evaluateLock, h]

theorem State.evaluateLock_outOfBand (h : (s.tod.get t).lock = .acquiring)
    (band : inBand reference (s.tod.get t).lastInterval = false) :
    s.evaluateLock t reference = s.setTod t { s.tod.get t with runCount := 1 } := by
  simp [State.evaluateLock, h, band]

theorem State.evaluateLock_counts (h : (s.tod.get t).lock = .acquiring)
    (band : inBand reference (s.tod.get t).lastInterval = true)
    (few : (s.tod.get t).runCount + 1 < s.geometry.lockCount) :
    s.evaluateLock t reference = s.setTod t { s.tod.get t with runCount := (s.tod.get t).runCount + 1 } := by
  simp [State.evaluateLock, h, band, Nat.not_le.2 few]

theorem State.evaluateLock_gains (h : (s.tod.get t).lock = .acquiring)
    (band : inBand reference (s.tod.get t).lastInterval = true)
    (enough : s.geometry.lockCount ≤ (s.tod.get t).runCount + 1) :
    s.evaluateLock t reference
      = s.setTod t (Tod.gainLock { s.tod.get t with runCount := (s.tod.get t).runCount + 1 } t) := by
  simp [State.evaluateLock, h, band, enough]

theorem State.evaluateLock_inWindow (h : (s.tod.get t).lock = .locked)
    (within : (s.tod.get t).frontTravel + (s.geometry.pulses.get t).front < s.geometry.slipWindowMicro) :
    s.evaluateLock t reference
      = s.setTod t { s.tod.get t with frontTravel := (s.tod.get t).frontTravel + (s.geometry.pulses.get t).front } := by
  simp [State.evaluateLock, h, Nat.not_le.2 within]

theorem State.evaluateLock_windowEnds (h : (s.tod.get t).lock = .locked)
    (ends : s.geometry.slipWindowMicro ≤ (s.tod.get t).frontTravel + (s.geometry.pulses.get t).front)
    (agree : slipped s.geometry ((s.tod.get t).frontTravel + (s.geometry.pulses.get t).front) (s.tod.get t).rearTravel
      = false) :
    s.evaluateLock t reference = s.setTod t { s.tod.get t with frontTravel := 0, rearTravel := 0 } := by
  simp [State.evaluateLock, h, ends, agree]

theorem State.evaluateLock_slips (h : (s.tod.get t).lock = .locked)
    (ends : s.geometry.slipWindowMicro ≤ (s.tod.get t).frontTravel + (s.geometry.pulses.get t).front)
    (differ : slipped s.geometry ((s.tod.get t).frontTravel + (s.geometry.pulses.get t).front) (s.tod.get t).rearTravel
      = true) :
    s.evaluateLock t reference = s.loseLock t .slip := by
  simp [State.evaluateLock, h, ends, differ]

end Evaluation

/-- Settles O28: the cases of `State.evaluateLock` by the lock state, with `inBand` and `slipped` read as R9 and R13 give
them. -/
theorem frontPulseIsEvaluatedForLockAndSlip : Obligations.FrontPulseIsEvaluatedForLockAndSlip := by
  intro s t reference o g inBandNow travel limit
  have band : inBand reference o.lastInterval = true ↔ inBandNow := inBand_iff
  have slip : slipped g travel o.rearTravel = true ↔ o.rearTravel + limit < travel ∨ travel + limit < o.rearTravel :=
    slipped_iff
  refine ⟨State.evaluateLock_unlocked, fun acquiring => ⟨fun out => ?_, fun now few => ?_, fun now enough => ?_⟩,
    fun locked => ⟨?_, fun ends near far => ?_, fun ends differ => ?_⟩⟩
  · exact State.evaluateLock_outOfBand acquiring (Bool.eq_false_iff.2 (mt band.1 out))
  · exact State.evaluateLock_counts acquiring (band.2 now) few
  · exact State.evaluateLock_gains acquiring (band.2 now) enough
  · exact State.evaluateLock_inWindow locked
  · refine State.evaluateLock_windowEnds locked ends (Bool.eq_false_iff.2 (mt slip.1 ?_))
    omega
  · exact State.evaluateLock_slips locked ends (slip.2 differ)

/-! ## Rear pulse (R12) -/

/-- A rear pulse, while the reset input is not held. -/
theorem exec_rearPulseArrival {s : State} (free : s.resetHeld = false) (t : Track) :
    exec (.rearPulseArrival t) s = .next (if s.mdc.mode.counting then s.takeRearPulse t else s) :=
  congrArg Host.Outcome.next (State.unlessHeld_free free _)

section RearPulse

variable {s : State} {t : Track}

theorem State.takeRearPulse_other (h : ¬((s.tod.get t).direction = .forward ∧ (s.tod.get t).lock = .locked)) :
    s.takeRearPulse t = s := if_neg h

theorem State.takeRearPulse_adds (ahead : (s.tod.get t).direction = .forward) (locked : (s.tod.get t).lock = .locked)
    (within : (s.tod.get t).rearTravel + (s.geometry.pulses.get t).rear
      ≤ s.geometry.slipWindowMicro + s.geometry.slipLimit) :
    s.takeRearPulse t
      = s.setTod t { s.tod.get t with rearTravel := (s.tod.get t).rearTravel + (s.geometry.pulses.get t).rear } := by
  simp [State.takeRearPulse, ahead, locked, Nat.not_lt.2 within]

theorem State.takeRearPulse_slips (ahead : (s.tod.get t).direction = .forward) (locked : (s.tod.get t).lock = .locked)
    (past : s.geometry.slipWindowMicro + s.geometry.slipLimit
      < (s.tod.get t).rearTravel + (s.geometry.pulses.get t).rear) :
    s.takeRearPulse t = s.loseLock t .slip := by
  simp [State.takeRearPulse, ahead, locked, past]

end RearPulse

/-- Settles O29: a rear pulse counts only in a counting mode on a LOCKED track in FORWARD, and slips past the window and the
slip limit. -/
theorem rearPulseMeasuresTheWindow : Obligations.RearPulseMeasuresTheWindow := by
  intro s t free o g travel limit taken
  rw [exec_rearPulseArrival free]
  refine ⟨fun other => ?_, fun ⟨counts, ahead, locked⟩ within => ?_, fun ⟨counts, ahead, locked⟩ past => ?_⟩
  · split
    · rename_i counts
      rw [State.takeRearPulse_other fun both => other ⟨(PartMode.counting_iff _).1 counts, both⟩]
    · rfl
  · rw [if_pos ((PartMode.counting_iff _).2 counts)]
    exact congrArg Host.Outcome.next (State.takeRearPulse_adds ahead locked within)
  · rw [if_pos ((PartMode.counting_iff _).2 counts)]
    exact congrArg Host.Outcome.next (State.takeRearPulse_slips ahead locked past)

/-! ## Standstill (R6) -/

theorem Tod.stood_acquiring {o : Tod} (h : o.lock = .acquiring) :
    o.stood =
      { o with
        speed := 0, lastInterval := none, previousTime := none, standstill := .stopped, lock := .unlocked
        runCount := 0 } := by
  simp [Tod.stood, h]

theorem Tod.stood_other {o : Tod} (h : o.lock ≠ .acquiring) :
    o.stood = { o with speed := 0, lastInterval := none, previousTime := none, standstill := .stopped } := by
  simp [Tod.stood, h]

/-- The expiry of a running standstill timer. -/
theorem exec_standstill {s : State} {t : Track} (free : s.resetHeld = false)
    (runs : (s.tod.get t).standstill ≠ .stopped) :
    exec (.standstill t) s = .next (s.setTod t (s.tod.get t).stood) := by
  refine congrArg Host.Outcome.next ((State.unlessHeld_free free _).trans ?_)
  exact if_neg runs

/-- Settles O30: a running timer expires, and `Tod.stood` unlocks an ACQUIRING track alone. -/
theorem standstillStopsTheTrack : Obligations.StandstillStopsTheTrack := by
  intro s t limit free runs o stopped
  rw [exec_standstill free (by simp [runs])]
  exact ⟨fun acquiring => by rw [Tod.stood_acquiring acquiring], fun other => by rw [Tod.stood_other other]⟩

end Sys2Proof.Machine
end

section
/-! The invariant of chapters 01 to 03: a LOCKED track's direction is FORWARD, tracks are UNLOCKED in CONFIG and STANDBY,
preview is ACTIVE in RUN alone, and segments are in passage in RUN on LOCKED tracks alone. -/

namespace Sys2Proof.Machine

/-! ## The segments of a list that are not SPENT -/

/-- The list of a track holds a segment in a state other than SPENT. -/
def Store.unspent (p : Store) (t : Track) : Prop := ∃ x ∈ p.lists.get t, x.state ≠ .spent

theorem State.passageAgrees_iff {s : State} :
    s.passageAgrees ↔ ∀ t, s.pvs.unspent t → s.mdc.mode = .run ∧ (s.tod.get t).lock = .locked :=
  ⟨fun h t ⟨x, mem, live⟩ => h t x mem live, fun h t x mem live => h t ⟨x, mem, live⟩⟩

/-- A list of which every slot was in the list before, with its state. -/
theorem Store.unspent_of_states {p q : Store} {t : Track}
    (h : ∀ x ∈ q.lists.get t, ∃ y ∈ p.lists.get t, y.state = x.state) (live : q.unspent t) : p.unspent t := by
  obtain ⟨x, mem, live⟩ := live
  obtain ⟨y, mem, same⟩ := h x mem
  exact ⟨y, mem, same ▸ live⟩

/-- A change of one list's slots that keeps their states. -/
theorem Store.unspent_map {p : Store} {t u : Track} {f : Slot → Slot} (keeps : ∀ x, (f x).state = x.state)
    (live : Store.unspent { p with lists := p.lists.set t ((p.lists.get t).map f) } u) : p.unspent u := by
  refine Store.unspent_of_states (fun x mem => ?_) live
  rw [PerTrack.get_set] at mem
  split at mem
  · rename_i same
    obtain ⟨y, old, rfl⟩ := List.mem_map.1 mem
    exact ⟨y, same ▸ old, (keeps y).symm⟩
  · exact ⟨x, mem, rfl⟩

theorem mem_settle_state {n : Nat} {x : Slot} {xs : List Slot} (h : x ∈ (settle n xs).1) :
    ∃ y ∈ xs, y.state = x.state := by
  obtain ⟨y, mem, rfl⟩ := List.mem_map.1 h
  exact ⟨y, (List.mem_filter.1 (mem_arrange.1 mem)).1, by simp⟩

theorem Store.unspent_settleList {p : Store} {t u : Track} {xs : List Slot} (h : (p.settleList t xs).unspent u) :
    (u = t ∧ ∃ x ∈ xs, x.state ≠ .spent) ∨ (u ≠ t ∧ p.unspent u) := by
  obtain ⟨x, mem, live⟩ := h
  rw [Store.settleList, PerTrack.get_set] at mem
  split at mem
  · rename_i same
    obtain ⟨y, mem, e⟩ := mem_settle_state mem
    exact .inl ⟨same, y, mem, e ▸ live⟩
  · rename_i other
    exact .inr ⟨other, x, mem, live⟩

@[simp] theorem Slot.flushed_state (x : Slot) : x.flushed.state = .spent := by
  unfold Slot.flushed
  split
  · assumption
  · rfl

/-- After a flush of a track every segment of its list is SPENT, and the other list is as it was (R42). -/
theorem Store.unspent_flush {p : Store} {t u : Track} (h : (p.flush t).unspent u) : u ≠ t ∧ p.unspent u := by
  rcases Store.unspent_settleList h with ⟨_, x, mem, live⟩ | other
  · obtain ⟨y, _, rfl⟩ := List.mem_map.1 mem
    exact absurd y.flushed_state live
  · exact other

theorem Store.not_unspent_flushBoth (p : Store) (t : Track) : ¬p.flushBoth.unspent t := by
  intro h
  obtain ⟨notRight, h⟩ := Store.unspent_flush h
  obtain ⟨notLeft, _⟩ := Store.unspent_flush h
  cases t with
  | left => exact notLeft rfl
  | right => exact notRight rfl

theorem Slot.advance_of_spent {x : Slot} (h : x.state = .spent) (v : AdvanceView) : x.advance v = x := by
  simp [Slot.advance, h]

theorem Store.unspent_advance {p : Store} {t u : Track} {v : AdvanceView} (h : (p.advance t v).unspent u) :
    p.unspent u := by
  rcases Store.unspent_settleList h with ⟨rfl, x, mem, live⟩ | ⟨_, live⟩
  · obtain ⟨y, old, rfl⟩ := List.mem_map.1 mem
    exact ⟨y, old, fun spent => live (by rw [Slot.advance_of_spent spent, spent])⟩
  · exact live

theorem Store.unspent_silenceFlush {p : Store} {u : Track} (h : p.silenceFlush.unspent u) : p.unspent u := by
  refine Store.unspent_of_states (fun x mem => ⟨x, ?_, rfl⟩) h
  simp only [Store.silenceFlush, withoutPending, PerTrack.get_of, mem_arrange] at mem
  exact (List.mem_filter.1 mem).1

theorem Store.unspent_release {p : Store} {serial : Nat} {u : Track} (h : (p.release serial).unspent u) :
    p.unspent u := by
  refine Store.unspent_of_states (fun x mem => ⟨x, ?_, rfl⟩) h
  simp only [Store.release, PerTrack.get_of, mem_arrange] at mem
  exact (List.mem_filter.1 mem).1

@[simp] theorem Slot.present_state (x : Slot) (r : Role) (supplied : Option (Int × Int)) :
    (x.present r supplied).state = x.state := by
  unfold Slot.present
  split
  · cases r <;> rfl
  · rfl

theorem Store.unspent_present {p : Store} {c : Corner} {supplied : Option (Int × Int)} {u : Track}
    (h : (p.present c supplied).unspent u) : p.unspent u :=
  Store.unspent_map (fun x => x.present_state c.role supplied) h

theorem Store.unspent_markOverride {p : Store} {t u : Track} {serial : Nat} (h : (p.markOverride t serial).unspent u) :
    p.unspent u :=
  Store.unspent_map (fun x => by split <;> rfl) h

/-- Acceptance brings a segment into the list of its own track alone (R34). -/
theorem Store.unspent_accept {p : Store} {g : Segment} {evicted : Option Slot} {u : Track}
    (h : (p.accept g evicted).unspent u) : u = g.track ∨ p.unspent u := by
  by_cases own : u = g.track
  · exact .inl own
  · refine .inr (Store.unspent_of_states (fun x mem => ⟨x, ?_, rfl⟩) h)
    simp only [Store.accept, PerTrack.get_of, mem_arrange, if_neg own] at mem
    exact (List.mem_filter.1 mem).1

/-! ## What the events give the store -/

theorem segmentOf_track {r : SegmentRecord} {g : Segment} (h : segmentOf r = some g) :
    trackOf r.track = some g.track := by
  simp only [segmentOf] at h
  split at h
  · rename_i onTrack _
    split at h
    · cases h
      exact onTrack
    · cases h
  · cases h

theorem State.judgeSegment_accepted {s : State} {g h : Segment} {evicted : Option Slot}
    (e : s.judgeSegment g = .accepted h evicted) : h = g := by
  unfold State.judgeSegment at e
  repeat' split at e
  all_goals cases e
  all_goals rfl

/-- A segment is accepted in RUN, with preview ACTIVE, on a LOCKED track alone (R25 to R27). -/
theorem State.judgeRecord_accepted {s : State} {r : SegmentRecord} {g : Segment} {evicted : Option Slot}
    (h : s.judgeRecord r = .accepted g evicted) :
    s.mdc.mode = .run ∧ s.pvs.preview = .active ∧ (s.tod.get g.track).lock = .locked := by
  unfold State.judgeRecord at h
  split at h
  · cases h
  rename_i run
  split at h
  · cases h
  rename_i active
  split at h
  · cases h
  rename_i locked
  split at h
  · cases h
  rename_i f inRange
  obtain rfl := State.judgeSegment_accepted h
  have read : segmentOf r = some g := by
    unfold State.inRange at inRange
    split at inRange
    · cases inRange
    · split at inRange
      · cases inRange
      · rename_i e _
        rwa [Option.some.inj inRange] at e
  refine ⟨Decidable.not_not.1 run, Decidable.not_not.1 active, ?_⟩
  simpa [State.trackUnlocked, segmentOf_track read] using locked

@[simp] theorem State.handAdvance_pvs (s : State) (t : Track) :
    (s.handAdvance t).pvs = s.pvs.advance t (s.advanceView t) := by simp [State.handAdvance]

@[simp] theorem State.enterRun_pvs (s : State) : s.enterRun.pvs = { s.pvs with preview := .active } := by
  simp [State.enterRun, corners]

@[simp] theorem State.enterSafe_pvs (s : State) : s.enterSafe.pvs = { s.pvs.flushBoth with preview := .suspended } := by
  simp [State.enterSafe]

@[simp] theorem State.enterStandby_pvs (s : State) :
    s.enterStandby.pvs = { s.pvs.flushBoth with preview := .suspended } := by simp [State.enterStandby]

@[simp] theorem State.enterStandby_tod (s : State) :
    s.enterStandby.tod = PerTrack.of fun t => (s.tod.get t).atStandby t := by simp [State.enterStandby]

@[simp] theorem Tod.atStandby_lock (o : Tod) (t : Track) : (o.atStandby t).lock = .unlocked := by
  unfold Tod.atStandby
  split <;> rfl

/-- A hand-over leaves preview as it is, and the state of every segment (R66). -/
theorem State.handOver_pvs (s : State) (c : Corner) (inEffect : Option Slot) (d : Demand) :
    (s.handOver c inEffect d).pvs.preview = s.pvs.preview
      ∧ ∀ u, (s.handOver c inEffect d).pvs.unspent u → s.pvs.unspent u := by
  unfold State.handOver
  split
  · simp
  · split
    · simpa using ⟨rfl, fun u => Store.unspent_markOverride⟩
    · simp

/-- An update in RUN leaves preview as it is, and the state of every segment (R60, R66). -/
theorem State.updateInRun_pvs (s : State) (c : Corner) (raw : Int) :
    (s.updateInRun c raw).pvs.preview = s.pvs.preview
      ∧ ∀ u, (s.updateInRun c raw).pvs.unspent u → s.pvs.unspent u := by
  simp only [State.updateInRun, State.bookkeep_frame, State.tellQuiet_frame]
  split
  · obtain ⟨preview, unspent⟩ := State.handOver_pvs
      ((s.updateSensor c raw).setPvs ((s.updateSensor c raw).pvs.present c
        ((s.cc.get c).supplies ((s.geometry.corners.get c).height raw))))
      c ((s.updateSensor c raw).inEffect c) ((s.updateSensor c raw).demandOf c ((s.updateSensor c raw).inEffect c))
    rw [preview]
    refine ⟨by simp [Store.present], fun u live => ?_⟩
    simpa using Store.unspent_present (unspent u live)
  · refine ⟨by simp [Store.present], fun u live => ?_⟩
    simpa using Store.unspent_present live

/-! ## What keeps the invariant -/

/-- Locks, preview and passage agree with the mode and with one another (R8, R38, R57). -/
def State.travelAgrees (s : State) : Prop := s.locksAgree ∧ s.previewAgrees ∧ s.passageAgrees

/-- Kept where mode and odometers stay, preview stays or ends, and no segment comes to be in passage. -/
theorem State.travelAgrees_of_frame {s t : State} (h : s.travelAgrees) (mode : t.mdc.mode = s.mdc.mode)
    (tod : t.tod = s.tod) (preview : t.pvs.preview = .active → s.pvs.preview = .active)
    (unspent : ∀ u, t.pvs.unspent u → s.pvs.unspent u) : t.travelAgrees := by
  obtain ⟨locks, runs, passage⟩ := h
  rw [State.passageAgrees_iff] at passage
  refine ⟨?_, ?_, State.passageAgrees_iff.2 ?_⟩
  · simpa only [State.locksAgree, mode, tod] using locks
  · rw [State.previewAgrees, mode]
    exact fun active => runs (preview active)
  · rw [mode, tod]
    exact fun u live => passage u (unspent u live)

/-- Kept where mode, odometers and store stay. -/
theorem State.travelAgrees_of_same {s t : State} (h : s.travelAgrees) (mode : t.mdc.mode = s.mdc.mode)
    (tod : t.tod = s.tod) (pvs : t.pvs = s.pvs) : t.travelAgrees :=
  State.travelAgrees_of_frame h mode tod (by rw [pvs]; exact id) (by rw [pvs]; exact fun _ => id)

/-- Kept by a change of one odometer, and of the store, by which a track with segments in passage stays LOCKED. -/
theorem State.travelAgrees_setTod_setPvs {s : State} (h : s.travelAgrees) {t : Track} {o : Tod} {p : Store}
    (ahead : o.lock = .locked → o.direction = .forward) (idle : s.mdc.mode.counting = false → o.lock = .unlocked)
    (preview : p.preview = s.pvs.preview) (unspent : ∀ u, p.unspent u → s.pvs.unspent u)
    (keeps : p.unspent t → (s.tod.get t).lock = .locked → o.lock = .locked) :
    ((s.setTod t o).setPvs p).travelAgrees := by
  obtain ⟨locks, runs, passage⟩ := h
  rw [State.passageAgrees_iff] at passage
  refine ⟨fun u => ?_, ?_, State.passageAgrees_iff.2 fun u live => ?_⟩
  · by_cases same : u = t
    · subst same
      simpa using ⟨ahead, idle⟩
    · simpa [same] using locks u
  · simpa [State.previewAgrees, preview] using runs
  · obtain ⟨run, locked⟩ := passage u (unspent u live)
    refine ⟨run, ?_⟩
    by_cases same : u = t
    · subst same
      simpa using keeps live locked
    · simpa [same] using locked

/-- Kept by a change of one odometer by which a LOCKED track stays LOCKED. -/
theorem State.travelAgrees_setTod {s : State} (h : s.travelAgrees) {t : Track} {o : Tod}
    (ahead : o.lock = .locked → o.direction = .forward) (idle : s.mdc.mode.counting = false → o.lock = .unlocked)
    (keeps : (s.tod.get t).lock = .locked → o.lock = .locked) : (s.setTod t o).travelAgrees :=
  State.travelAgrees_setTod_setPvs h ahead idle rfl (fun _ => id) fun _ => keeps

/-- Kept by a change of one odometer that leaves its lock and its direction. -/
theorem State.travelAgrees_setTod_same {s : State} (h : s.travelAgrees) {t : Track} {o : Tod}
    (lock : o.lock = (s.tod.get t).lock) (direction : o.direction = (s.tod.get t).direction) :
    (s.setTod t o).travelAgrees := by
  obtain ⟨ahead, idle⟩ := h.1 t
  exact State.travelAgrees_setTod h (by rwa [lock, direction]) (by rwa [lock]) (by rw [lock]; exact id)

/-- Kept by every lock loss, whatever the odometer's other items become: the track is flushed with it (R41). -/
theorem State.travelAgrees_unlocks {s : State} (h : s.travelAgrees) {t : Track} {o : Tod} (lock : o.lock = .unlocked) :
    ((s.setTod t o).setPvs (s.pvs.flush t)).travelAgrees :=
  State.travelAgrees_setTod_setPvs h (by simp [lock]) (fun _ => lock) rfl (fun _ live => (Store.unspent_flush live).2)
    fun live => absurd rfl (Store.unspent_flush live).1

/-- Every segment SPENT and preview SUSPENDED: what is left to show is the locks. -/
theorem State.travelAgrees_of_flushed {t : State} {p : Store} (locks : t.locksAgree)
    (pvs : t.pvs = { p.flushBoth with preview := .suspended }) : t.travelAgrees := by
  refine ⟨locks, by simp [State.previewAgrees, pvs], State.passageAgrees_iff.2 fun u live => ?_⟩
  rw [pvs] at live
  exact absurd live (p.not_unspent_flushBoth u)

/-- In a mode that counts, the locks are bound by the direction alone. -/
theorem State.locksAgree_of_counting {s t : State} (h : s.locksAgree) (tod : t.tod = s.tod)
    (counts : t.mdc.mode.counting = true) : t.locksAgree := by
  intro u
  rw [tod, counts]
  exact ⟨(h u).1, fun idle => by cases idle⟩

/-! ## The changes of mode -/

/-- Outside RUN preview is SUSPENDED and every segment SPENT. -/
theorem State.idle_of_travelAgrees {s : State} (h : s.travelAgrees) (mode : s.mdc.mode ≠ .run) :
    s.pvs.preview ≠ .active ∧ ∀ u, ¬s.pvs.unspent u :=
  ⟨fun active => mode (h.2.1 active), fun u live => mode (State.passageAgrees_iff.1 h.2.2 u live).1⟩

theorem State.travelAgrees_enterSafe {s : State} (h : s.travelAgrees) : s.enterSafe.travelAgrees :=
  State.travelAgrees_of_flushed (State.locksAgree_of_counting h.1 (by simp) (by simp [PartMode.counting]))
    s.enterSafe_pvs

theorem State.travelAgrees_enterStandby (s : State) : s.enterStandby.travelAgrees :=
  State.travelAgrees_of_flushed (fun u => by simp) s.enterStandby_pvs

theorem State.travelAgrees_enterStarting {s : State} (h : s.travelAgrees) (mode : s.mdc.mode ≠ .run) :
    s.enterStarting.travelAgrees := by
  obtain ⟨suspended, spent⟩ := State.idle_of_travelAgrees h mode
  refine ⟨State.locksAgree_of_counting h.1 (by simp) (by simp [PartMode.counting]), ?_,
    State.passageAgrees_iff.2 fun u live => ?_⟩
  · simp [State.previewAgrees, suspended]
  · exact absurd (by simpa using live) (spent u)

theorem State.travelAgrees_enterRun {s : State} (h : s.travelAgrees) (mode : s.mdc.mode ≠ .run) :
    s.enterRun.travelAgrees := by
  obtain ⟨_, spent⟩ := State.idle_of_travelAgrees h mode
  refine ⟨State.locksAgree_of_counting h.1 (by simp) (by simp [PartMode.counting]), ?_,
    State.passageAgrees_iff.2 fun u live => ?_⟩
  · simp [State.previewAgrees]
  · rw [State.enterRun_pvs] at live
    exact absurd live (spent u)

theorem State.travelAgrees_runIfChecked {s : State} (h : s.travelAgrees) : s.runIfChecked.travelAgrees := by
  unfold State.runIfChecked
  split
  · rename_i checked
    exact State.travelAgrees_enterRun h (by simp [checked.1])
  · exact h

theorem State.travelAgrees_escalate {s : State} (h : s.travelAgrees) : s.escalate.travelAgrees := by
  unfold State.escalate
  split
  · exact State.travelAgrees_enterSafe h
  · exact State.travelAgrees_runIfChecked h

theorem State.travelAgrees_enterFaulted {s : State} (h : s.travelAgrees) (c : Corner) (kind : FaultKind)
    (measured : Nat) : (s.enterFaulted c kind measured).travelAgrees :=
  State.travelAgrees_escalate (State.travelAgrees_of_same h (by simp) (by simp) (by simp))

/-! ## The events of the odometers and the drivers -/

theorem State.travelAgrees_giveDirection {s : State} (h : s.travelAgrees) (d : Direction) (t : Track) :
    (s.giveDirection d t).travelAgrees := by
  obtain ⟨ahead, idle⟩ := h.1 t
  by_cases same : (s.tod.get t).direction = d
  · rwa [State.giveDirection_same same]
  by_cases kept : d = .forward ∨ (s.tod.get t).lock = .unlocked
  · rw [State.giveDirection_kept same kept]
    refine State.travelAgrees_setTod h (fun locked => ?_) idle id
    exact kept.resolve_right fun unlocked => by simp [unlocked] at locked
  obtain ⟨away, notUnlocked⟩ := not_or.1 kept
  cases lock : (s.tod.get t).lock with
  | unlocked => exact absurd lock notUnlocked
  | acquiring =>
    rw [State.giveDirection_acquiring same away lock]
    exact State.travelAgrees_setTod h (by simp) (fun _ => rfl) (by simp [lock])
  | locked =>
    rw [State.giveDirection_locked same away lock, State.loseLock_setTod]
    exact State.travelAgrees_unlocks h rfl

/-- What the evaluation of a front pulse can do: it writes the odometer, whose direction stays and whose lock, once LOCKED,
stays; or a LOCKED track loses its lock to slip. -/
theorem State.evaluateLock_cases (s : State) (t : Track) (reference : Option Nat) :
    (∃ o : Tod, s.evaluateLock t reference = s.setTod t o ∧ o.direction = (s.tod.get t).direction
        ∧ ((s.tod.get t).lock = .locked → o.lock = .locked))
      ∨ ((s.tod.get t).lock = .locked ∧ s.evaluateLock t reference = s.loseLock t .slip) := by
  cases lock : (s.tod.get t).lock with
  | unlocked => exact .inl ⟨_, State.evaluateLock_unlocked lock, rfl, by simp⟩
  | acquiring =>
    cases band : inBand reference (s.tod.get t).lastInterval with
    | false => exact .inl ⟨_, State.evaluateLock_outOfBand lock band, rfl, by simp⟩
    | true =>
      rcases Nat.lt_or_ge ((s.tod.get t).runCount + 1) s.geometry.lockCount with few | enough
      · exact .inl ⟨_, State.evaluateLock_counts lock band few, rfl, by simp⟩
      · exact .inl ⟨_, State.evaluateLock_gains lock band enough, rfl, by simp⟩
  | locked =>
    rcases Nat.lt_or_ge ((s.tod.get t).frontTravel + (s.geometry.pulses.get t).front) s.geometry.slipWindowMicro
      with within | ends
    · exact .inl ⟨_, State.evaluateLock_inWindow lock within, rfl, fun _ => lock⟩
    · cases slip : slipped s.geometry ((s.tod.get t).frontTravel + (s.geometry.pulses.get t).front)
          (s.tod.get t).rearTravel with
      | false => exact .inl ⟨_, State.evaluateLock_windowEnds lock ends slip, rfl, fun _ => lock⟩
      | true => exact .inr ⟨rfl, State.evaluateLock_slips lock ends slip⟩

theorem State.travelAgrees_evaluateLock {s : State} (h : s.travelAgrees) {t : Track} (reference : Option Nat)
    (counts : s.mdc.mode.counting = true) (ahead : (s.tod.get t).direction = .forward) :
    (s.evaluateLock t reference).travelAgrees := by
  rcases s.evaluateLock_cases t reference with ⟨o, e, direction, keeps⟩ | ⟨_, e⟩
  · rw [e]
    exact State.travelAgrees_setTod h (fun _ => direction.trans ahead) (by simp [counts]) keeps
  · rw [e]
    exact State.travelAgrees_unlocks h rfl

theorem State.travelAgrees_handAdvance {s : State} (h : s.travelAgrees) (t : Track) : (s.handAdvance t).travelAgrees :=
  State.travelAgrees_of_frame h (by simp) (by simp) (by rw [State.handAdvance_pvs]; exact id) fun u live => by
    rw [State.handAdvance_pvs] at live
    exact Store.unspent_advance live

theorem State.travelAgrees_takeFrontPulse {s : State} (h : s.travelAgrees) (t : Track) (time : Nat)
    (counts : s.mdc.mode.counting = true) : (s.takeFrontPulse t time).travelAgrees := by
  by_cases ahead : (s.tod.get t).direction = .forward
  · rw [State.takeFrontPulse_forward ahead]
    refine State.travelAgrees_evaluateLock (State.travelAgrees_handAdvance ?_ t) _ (by simpa using counts) ?_
    · exact State.travelAgrees_setTod_same h rfl rfl
    · simpa [Tod.advanced, Tod.timed] using ahead
  · rw [State.takeFrontPulse_away ahead]
    exact State.travelAgrees_setTod_same h rfl rfl

theorem State.travelAgrees_takeRearPulse {s : State} (h : s.travelAgrees) (t : Track) :
    (s.takeRearPulse t).travelAgrees := by
  by_cases counts : (s.tod.get t).direction = .forward ∧ (s.tod.get t).lock = .locked
  · obtain ⟨ahead, locked⟩ := counts
    rcases Nat.lt_or_ge (s.geometry.slipWindowMicro + s.geometry.slipLimit)
      ((s.tod.get t).rearTravel + (s.geometry.pulses.get t).rear) with past | within
    · rw [State.takeRearPulse_slips ahead locked past]
      exact State.travelAgrees_unlocks h rfl
    · rw [State.takeRearPulse_adds ahead locked within]
      exact State.travelAgrees_setTod_same h rfl rfl
  · rwa [State.takeRearPulse_other counts]

theorem State.travelAgrees_stood {s : State} (h : s.travelAgrees) (t : Track) :
    (s.setTod t (s.tod.get t).stood).travelAgrees := by
  by_cases acquiring : (s.tod.get t).lock = .acquiring
  · rw [Tod.stood_acquiring acquiring]
    exact State.travelAgrees_setTod h (by simp) (fun _ => rfl) (by simp [acquiring])
  · rw [Tod.stood_other acquiring]
    exact State.travelAgrees_setTod_same h rfl rfl

theorem State.travelAgrees_setVd {s : State} (h : s.travelAgrees) (c : Corner) (v : Vd) : (s.setVd c v).travelAgrees :=
  State.travelAgrees_of_same h rfl rfl rfl

theorem State.travelAgrees_sample {s : State} (h : s.travelAgrees) (c : Corner) (n : Nat) :
    (s.sample c n).travelAgrees := by
  simp only [State.sample]
  split
  · exact State.travelAgrees_enterFaulted (State.travelAgrees_setVd h c _) c _ _
  · split
    · exact State.travelAgrees_setVd (State.travelAgrees_setVd h c _) c _
    · exact State.travelAgrees_setVd h c _

theorem State.travelAgrees_trackingExpires {s : State} (h : s.travelAgrees) (c : Corner) :
    (s.trackingExpires c).travelAgrees := by
  simp only [State.trackingExpires]
  split
  · exact State.travelAgrees_enterFaulted h c _ _
  · exact h

theorem State.travelAgrees_checkPassed {s : State} (h : s.travelAgrees) (c : Corner) (resistance : Nat) :
    (s.checkPassed c resistance).travelAgrees := by
  unfold State.checkPassed
  cases s.mdc.mode with
  | starting => exact State.travelAgrees_runIfChecked (State.travelAgrees_of_same h (by simp) (by simp) (by simp))
  | run => exact State.travelAgrees_of_same h (by simp) (by simp) (by simp)
  | config | safe | standby => exact h

theorem State.travelAgrees_checkCompletes {s : State} (h : s.travelAgrees) (c : Corner) (resistance : Nat) :
    (s.checkCompletes c resistance).travelAgrees := by
  unfold State.checkCompletes
  split
  · exact State.travelAgrees_enterFaulted h c _ _
  · exact State.travelAgrees_enterFaulted h c _ _
  · exact State.travelAgrees_checkPassed h c resistance

theorem State.travelAgrees_trimCompletes {s : State} (h : s.travelAgrees) (c : Corner) (t : Trim) (resistance : Nat) :
    (s.trimCompletes c t resistance).travelAgrees := by
  unfold State.trimCompletes
  split
  · exact State.travelAgrees_enterFaulted h c _ _
  · exact State.travelAgrees_enterFaulted h c _ _
  · exact State.travelAgrees_of_same h (by simp) (by simp) (by simp)

/-! ## The requests, and what empties a marker -/

theorem State.travelAgrees_accept {s : State} (h : s.travelAgrees) {r : SegmentRecord} {g : Segment}
    {evicted : Option Slot} (accepted : s.judgeRecord r = .accepted g evicted) :
    (s.setPvs (s.pvs.accept g evicted)).travelAgrees := by
  obtain ⟨locks, runs, passage⟩ := h
  obtain ⟨run, _, locked⟩ := State.judgeRecord_accepted accepted
  refine ⟨locks, runs, State.passageAgrees_iff.2 fun u live => ?_⟩
  rcases Store.unspent_accept live with rfl | live
  · exact ⟨run, locked⟩
  · exact State.passageAgrees_iff.1 passage u live

theorem State.travelAgrees_acceptSwitch {s : State} (h : s.travelAgrees) (p : ProfileName) :
    (s.acceptSwitch p).travelAgrees := by
  unfold State.acceptSwitch
  cases s.mdc.mode with
  | safe => exact h
  | config | standby | starting | run => exact State.travelAgrees_of_same h (by simp) (by simp) (by simp)

theorem State.travelAgrees_release {s : State} (h : s.travelAgrees) (serial : Nat) :
    (s.setPvs (s.pvs.release serial)).travelAgrees :=
  State.travelAgrees_of_frame h rfl rfl id fun _ => Store.unspent_release

theorem State.travelAgrees_emptyMarker {s : State} (h : s.travelAgrees) (m : Marker) :
    (s.emptyMarker m).travelAgrees := by
  cases m with
  | fault c => exact State.travelAgrees_of_same h rfl rfl rfl
  | mode => exact State.travelAgrees_of_same h rfl rfl rfl
  | lock t => exact State.travelAgrees_setTod_same h rfl rfl
  | profile => exact State.travelAgrees_of_same h rfl rfl rfl
  | condition c b => exact State.travelAgrees_of_same h rfl rfl rfl
  | passage =>
    simp only [State.emptyMarker]
    split
    · exact h
    · exact State.travelAgrees_release h _

theorem State.startFinding_ok_ne_run {s : State} (h : s.startFinding = .ok) : s.mdc.mode ≠ .run := by
  intro run
  simp [State.startFinding, run] at h

theorem State.travelAgrees_reset {s : State} (tod : s.tod = PerTrack.of fun _ => Tod.reset) (pvs : s.pvs = Store.reset) :
    s.travelAgrees := by
  refine ⟨fun u => ?_, ?_, fun u x mem => ?_⟩
  · simp [tod, Tod.reset]
  · simp [State.previewAgrees, pvs, Store.reset]
  · simp [pvs, Store.reset] at mem

/-- The invariant is kept by each change that a command makes. -/
theorem State.travelAgrees_keeps : Keeps State.travelAgrees where
  outer _ _ _ _ h := State.travelAgrees_of_same h rfl rfl rfl
  resumes s h run _ := by
    obtain ⟨locks, _, passage⟩ := h
    exact ⟨locks, fun _ => run, passage⟩
  setGroup _ _ _ _ _ _ h _ _ _ := State.travelAgrees_of_same h rfl rfl rfl
  setLocks _ _ _ _ h := State.travelAgrees_of_same h rfl rfl rfl
  writeVariant _ _ _ _ h _ := State.travelAgrees_of_same h rfl rfl rfl
  start _ _ h ok := State.travelAgrees_enterStarting h (State.startFinding_ok_ne_run ok)
  standby _ s _ _ := s.travelAgrees_enterStandby
  restart _ _ _ := State.travelAgrees_reset rfl rfl
  motion _ _ _ d t h := State.travelAgrees_giveDirection h d t
  preview _ _ _ _ _ h accepted := State.travelAgrees_accept h accepted
  withdraw _ _ _ x h _ _ := State.travelAgrees_release h x.serial
  select _ _ _ p h _ _ _ := State.travelAgrees_acceptSwitch h p
  trimAhead _ _ _ _ _ h _ _ := State.travelAgrees_of_same h (by simp) (by simp) (by simp)
  recheck _ _ _ _ h _ _ := State.travelAgrees_of_same h (by simp) (by simp) (by simp)
  setReporting _ _ _ _ _ _ h := State.travelAgrees_of_same h rfl rfl rfl
  clear _ _ _ _ _ _ h := State.travelAgrees_of_same h rfl rfl rfl
  fullReset _ _ _ _ := State.travelAgrees_reset rfl rfl
  frontPulse t time _ _ h counts := State.travelAgrees_takeFrontPulse h t time counts
  rearPulse t _ _ h _ := State.travelAgrees_takeRearPulse h t
  standstill t _ _ h _ := State.travelAgrees_stood h t
  updateInRun c raw _ s h _ := by
    obtain ⟨preview, unspent⟩ := s.updateInRun_pvs c raw
    exact State.travelAgrees_of_frame h (by simp) (by simp) (by rw [preview]; exact id) unspent
  updateOutsideRun _ _ _ _ h _ := State.travelAgrees_of_same h (by simp) (by simp) (by simp)
  sample c n _ _ h := State.travelAgrees_sample h c n
  trackingExpires c _ _ h := State.travelAgrees_trackingExpires h c
  checkCompletes c r _ _ h _ := State.travelAgrees_checkCompletes h c r
  trimCompletes c r _ _ t h _ _ := State.travelAgrees_trimCompletes h c t r
  trimTimerExpires _ _ _ h _ := State.travelAgrees_of_same h (by simp) (by simp) (by simp)
  silence _ s h _ _ := by
    refine State.travelAgrees_of_frame h (by simp) (by simp) (by simp) fun u live => Store.unspent_silenceFlush ?_
    simp only [State.makeModeReport_frame, State.setPvs_pvs] at live
    exact live
  emptyMarker _ _ m h := State.travelAgrees_emptyMarker h m

/-- Settles O31: the three properties are kept together by each change that a command makes, so by every step. -/
theorem passageOnlyInRunOnLockedForwardTracks : Obligations.PassageOnlyInRunOnLockedForwardTracks :=
  fun _ _ stepped h => Keeps.step State.travelAgrees_keeps h stepped

end Sys2Proof.Machine
end

section
/-! Segment passage (chapter 03): the states that an advance takes a slot through one after another, and the slot that it
leaves, said of the state in which it comes to rest. -/

namespace Sys2Proof.Machine

/-! ## The work of the states passed (R52, R62, R63) -/

/-- A move from one passage state to another enters the state `st`. -/
abbrev SlotState.enters (a b st : SlotState) : Prop := a.rank < st.rank ∧ st.rank ≤ b.rank

/-- A move from one passage state to another leaves the state `st`. -/
abbrev SlotState.leaves (a b st : SlotState) : Prop := a.rank ≤ st.rank ∧ st.rank < b.rank

/-- A role's record after a move of its slot from the state `a` to the state `b`: `leadState` and `onState` are the role's
LEAD and ON states, `lead` its live lead and `demand` its corner's last demand. -/
def RoleRecord.moved (r : RoleRecord) (lead demand : Nat) (leadState onState a b : SlotState) : RoleRecord :=
  { r with
    frozenLead := if a.enters b leadState then some lead else r.frozenLead
    entryDemand := if a.enters b onState then some demand else r.entryDemand
    missed := if a.leaves b onState then r.missed || !r.seen else r.missed }

theorem RoleRecord.moved_self (r : RoleRecord) (lead demand : Nat) (leadState onState a : SlotState) :
    r.moved lead demand leadState onState a a = r := by
  have enters (st : SlotState) : ¬a.enters a st := fun ⟨_, _⟩ => by omega
  have leaves (st : SlotState) : ¬a.leaves a st := fun ⟨_, _⟩ => by omega
  simp [RoleRecord.moved, enters, leaves]

/-- A choice on either of two grounds, one ground after the other (Mathlib's `ite_or`, which the module does not import). -/
theorem if_or {α : Type} (p q : Prop) [Decidable p] [Decidable q] (a b : α) :
    (if p ∨ q then a else b) = if p then a else if q then a else b := by
  by_cases first : p
  · rw [if_pos (Or.inl first), if_pos first]
  · by_cases second : q
    · rw [if_pos (Or.inr second), if_neg first, if_pos second]
    · rw [if_neg fun both => both.elim first second, if_neg first, if_neg second]

/-- Two moves in a row do the work of one. -/
theorem RoleRecord.moved_moved (r : RoleRecord) (lead demand : Nat) (leadState onState : SlotState) {a b c : SlotState}
    (ab : a.rank ≤ b.rank) (bc : b.rank ≤ c.rank) :
    (r.moved lead demand leadState onState a b).moved lead demand leadState onState b c
      = r.moved lead demand leadState onState a c := by
  have enters (st : SlotState) : a.enters c st ↔ b.enters c st ∨ a.enters b st := by
    unfold SlotState.enters
    omega
  have leaves (st : SlotState) : a.leaves c st ↔ a.leaves b st ∨ b.leaves c st := by
    unfold SlotState.leaves
    omega
  simp only [RoleRecord.moved, enters, leaves, if_or]
  by_cases left : a.leaves b onState
  · simp only [if_pos left, Bool.or_assoc, Bool.or_self, ite_self]
  · simp only [if_neg left]

/-- A slot moved to the state `st`, with the work of every state that it enters and leaves on the way. -/
def Slot.movedTo (x : Slot) (v : AdvanceView) (st : SlotState) : Slot :=
  { x with
    state := st
    front := x.front.moved (liveLead v.front.profile v.speed x.segment) v.front.demand .frontLead .frontOn x.state st
    rear := x.rear.moved (liveLead v.rear.profile v.speed x.segment) v.rear.demand .rearLead .rearOn x.state st }

theorem Slot.movedTo_self (x : Slot) (v : AdvanceView) : x.movedTo v x.state = x := by
  simp only [Slot.movedTo, RoleRecord.moved_self]

theorem Slot.movedTo_movedTo (x : Slot) (v : AdvanceView) {a b : SlotState} (first : x.state.rank ≤ a.rank)
    (second : a.rank ≤ b.rank) : (x.movedTo v a).movedTo v b = x.movedTo v b := by
  simp only [Slot.movedTo, RoleRecord.moved_moved _ _ _ _ _ first second]

/-! ## One state after another (R53 to R55) -/

/-- The passage state after another one; SPENT is the last. -/
def SlotState.following : SlotState → SlotState
  | .pending => .frontLead
  | .frontLead => .frontOn
  | .frontOn => .between
  | .between => .rearLead
  | .rearLead => .rearOn
  | .rearOn => .spent
  | .spent => .spent

/-- An advance leaves a segment in a state: the corner that the state waits for is still before the point where it ends
(R53, R54). -/
def AdvanceView.rests (v : AdvanceView) (g : Segment) : SlotState → Bool
  | .pending => v.front.beforeLead v.speed g
  | .frontLead => v.front.beforeStart g
  | .frontOn => v.front.beforeTrailEnd g
  | .between => v.rear.beforeLead v.speed g
  | .rearLead => v.rear.beforeStart g
  | .rearOn => v.rear.beforeTrailEnd g
  | .spent => true

theorem SlotState.rank_following {st : SlotState} (h : st ≠ .spent) : st.following.rank = st.rank + 1 := by
  cases st with
  | spent => exact absurd rfl h
  | pending | frontLead | frontOn | between | rearLead | rearOn => rfl

theorem AdvanceView.ne_spent_of_not_rests {v : AdvanceView} {g : Segment} {st : SlotState} (h : ¬v.rests g st = true) :
    st ≠ .spent := fun e => h (e ▸ rfl)

theorem SlotState.rank_le_six (st : SlotState) : st.rank ≤ 6 := by cases st <;> decide

/-- Every advance is this: the slot rests in its state, or moves to the one that follows and is judged there in turn. -/
theorem Slot.advance_eq (x : Slot) (v : AdvanceView) :
    x.advance v =
      if v.rests x.segment x.state then x else (x.movedTo v x.state.following).advance v := by
  obtain ⟨serial, segment, state, front, rear, incomplete, overrideUsed, place⟩ := x
  cases state <;> rfl

/-- The state in which an advance brings a segment to rest that it finds in a given state. -/
def AdvanceView.restFrom (v : AdvanceView) (g : Segment) (st : SlotState) : SlotState :=
  if v.rests g st then st else v.restFrom g st.following
termination_by 6 - st.rank
decreasing_by
  rename_i moves
  have step := SlotState.rank_following (AdvanceView.ne_spent_of_not_rests moves)
  have last := st.following.rank_le_six
  omega

theorem AdvanceView.rank_le_restFrom (v : AdvanceView) (g : Segment) (st : SlotState) :
    st.rank ≤ (v.restFrom g st).rank := by
  induction st using AdvanceView.restFrom.induct v g with
  | case1 st rests =>
    have stays : v.restFrom g st = st := by rw [AdvanceView.restFrom, if_pos rests]
    exact Nat.le_of_eq (congrArg SlotState.rank stays.symm)
  | case2 st moves ih =>
    rw [AdvanceView.restFrom, if_neg moves]
    have step := SlotState.rank_following (AdvanceView.ne_spent_of_not_rests moves)
    omega

/-- The tests of an advance one after another, from each state (R53, R54). -/
theorem AdvanceView.restFrom_state (v : AdvanceView) (g : Segment) :
    v.restFrom g .pending = (if v.front.beforeLead v.speed g then .pending else v.restFrom g .frontLead)
      ∧ v.restFrom g .frontLead = (if v.front.beforeStart g then .frontLead else v.restFrom g .frontOn)
      ∧ v.restFrom g .frontOn = (if v.front.beforeTrailEnd g then .frontOn else v.restFrom g .between)
      ∧ v.restFrom g .between = (if v.rear.beforeLead v.speed g then .between else v.restFrom g .rearLead)
      ∧ v.restFrom g .rearLead = (if v.rear.beforeStart g then .rearLead else v.restFrom g .rearOn)
      ∧ v.restFrom g .rearOn = (if v.rear.beforeTrailEnd g then .rearOn else .spent)
      ∧ v.restFrom g .spent = .spent := by
  have last : v.restFrom g .spent = .spent := by rw [AdvanceView.restFrom]; rfl
  refine ⟨?_, ?_, ?_, ?_, ?_, ?_, last⟩
  all_goals rw [AdvanceView.restFrom]
  case refine_6 => simp only [SlotState.following, last]; rfl
  all_goals rfl

/-- An advance moves a slot to the state in which it comes to rest. -/
theorem Slot.advance_eq_movedTo (x : Slot) (v : AdvanceView) :
    x.advance v = x.movedTo v (v.restFrom x.segment x.state) := by
  generalize segment : x.segment = g
  induction state : x.state using AdvanceView.restFrom.induct v g generalizing x with
  | case1 st rests =>
    subst segment state
    rw [Slot.advance_eq, AdvanceView.restFrom, if_pos rests, if_pos rests, Slot.movedTo_self]
  | case2 st moves ih =>
    subst segment state
    have step := SlotState.rank_following (AdvanceView.ne_spent_of_not_rests moves)
    rw [Slot.advance_eq, AdvanceView.restFrom, if_neg moves, if_neg moves, ih (x.movedTo v x.state.following) rfl rfl]
    exact x.movedTo_movedTo v (by omega) (v.rank_le_restFrom x.segment _)

/-- What a moved record's MISSED flag is, as one value. -/
theorem RoleRecord.moved_eq (r : RoleRecord) (lead demand : Nat) (leadState onState a b : SlotState) :
    r.moved lead demand leadState onState a b =
      { r with
        frozenLead := if a.enters b leadState then some lead else r.frozenLead
        entryDemand := if a.enters b onState then some demand else r.entryDemand
        missed := r.missed || (decide (a.leaves b onState) && !r.seen) } := by
  unfold RoleRecord.moved
  by_cases left : a.leaves b onState <;> simp [left]

/-- Settles O37: the resting state by the six tests that `AdvanceView.restFrom` makes one after another, the work of the
states passed by `Slot.movedTo`. -/
theorem advanceMovesASegmentThroughItsStates : Obligations.AdvanceMovesASegmentThroughItsStates := by
  intro x v
  have moved := x.advance_eq_movedTo v
  have rest : (x.advance v).state = v.restFrom x.segment x.state := by rw [moved]; rfl
  rw [← rest] at moved
  refine ⟨?_, ?_, ?_, ?_, ?_⟩
  · rw [rest]
    cases x.state <;> simp only [AdvanceView.restFrom_state] <;> rfl
  · rw [rest]
    exact v.rank_le_restFrom x.segment x.state
  · exact (congrArg Slot.front moved).trans (RoleRecord.moved_eq ..)
  · exact (congrArg Slot.rear moved).trans (RoleRecord.moved_eq ..)
  · rw [moved]
    rfl

end Sys2Proof.Machine
end

section
/-! An update in RUN (chapters 03 to 05): its sample and its sensor, its boundary test, and what it leaves in the store; which
segment is in effect in a list in order. -/

namespace Sys2Proof.Machine

/-! ## The sample and the sensor (R92 to R98) -/

/-- A raw count lies in the corner's range (R92). -/
abbrev CornerGeometry.holds (g : CornerGeometry) (raw : Int) : Prop := g.low ≤ raw ∧ raw ≤ g.high

section Sample

variable (x : Cc) (g : CornerGeometry) (raw : Int)

theorem CornerGeometry.height_of_holds {g : CornerGeometry} {raw : Int} (good : g.holds raw) :
    g.height raw = some (raw * g.scale) := if_pos good

theorem CornerGeometry.height_of_not_holds {g : CornerGeometry} {raw : Int} (bad : ¬g.holds raw) :
    g.height raw = none := if_neg bad

theorem Cc.nextBadRun_none : x.nextBadRun none = min 3 (x.badRun + 1) := by
  simp only [Cc.nextBadRun]
  split <;> omega

theorem Cc.nextBadRun_height : x.nextBadRun (g.height raw) = if g.holds raw then 0 else min 3 (x.badRun + 1) := by
  by_cases good : g.holds raw
  · rw [CornerGeometry.height_of_holds good, if_pos good]
    rfl
  · rw [CornerGeometry.height_of_not_holds good, if_neg good, Cc.nextBadRun_none]

/-- A third sample out of range in a row is the one that finds two before it (R93). -/
theorem Cc.nextBadRun_none_eq_three : x.nextBadRun none = 3 ↔ 2 ≤ x.badRun := by
  rw [Cc.nextBadRun_none]
  omega

theorem Cc.nextSensor_height :
    x.nextSensor (g.height raw) =
      match x.sensor with
      | .valid => if ¬g.holds raw ∧ 2 ≤ x.badRun then SensorState.lost else .valid
      | .lost => if g.holds raw ∧ 9 ≤ x.goodRun then SensorState.valid else .lost := by
  by_cases good : g.holds raw
  · rw [CornerGeometry.height_of_holds good]
    cases sensor : x.sensor <;> simp [Cc.nextSensor, sensor, eq_true good]
  · rw [CornerGeometry.height_of_not_holds good]
    cases sensor : x.sensor <;> simp [Cc.nextSensor, sensor, good, Cc.nextBadRun_none_eq_three]

theorem Cc.nextGoodRun_height :
    x.nextGoodRun (g.height raw) =
      match x.sensor with
      | .valid => if x.nextSensor (g.height raw) = .lost then 0 else x.goodRun
      | .lost => if g.holds raw ∧ x.nextSensor (g.height raw) = .lost then x.goodRun + 1 else 0 := by
  by_cases good : g.holds raw
  · rw [CornerGeometry.height_of_holds good]
    cases sensor : x.sensor with
    | valid => simp [Cc.nextGoodRun, Cc.nextSensor, sensor]
    | lost => by_cases enough : 9 ≤ x.goodRun <;> simp [Cc.nextGoodRun, Cc.nextSensor, sensor, eq_true good, enough]
  · rw [CornerGeometry.height_of_not_holds good]
    cases sensor : x.sensor <;> simp [Cc.nextGoodRun, Cc.nextSensor, sensor, good]

theorem Cc.formed_height :
    x.formed (g.height raw) = if g.holds raw then x.previousHeight.map fun p => raw * g.scale - p else none := by
  by_cases good : g.holds raw
  · rw [CornerGeometry.height_of_holds good, if_pos good]
    cases previous : x.previousHeight <;> simp [Cc.formed, previous]
  · rw [CornerGeometry.height_of_not_holds good, if_neg good]
    rfl

/-- The store is supplied a height and a velocity that were both formed, while the sensor is VALID (R98). -/
theorem Cc.supplies_eq (height : Option Int) :
    x.supplies height =
      match height, x.formed height with
      | some h, some v => if x.nextSensor height = .valid then some (h, v) else none
      | _, _ => none := by
  unfold Cc.supplies
  cases height with
  | none => cases x.nextSensor none <;> rfl
  | some h => cases x.nextSensor (some h) <;> cases x.formed (some h) <;> rfl

end Sample

/-- The velocity of an update: its own while its sensor is VALID, or else its partner's by substitution (R96, R97). -/
theorem State.velocityUsed_eq (s : State) (c : Corner) :
    s.velocityUsed c =
      if (s.cc.get c).sensor = .valid then some (s.cc.get c).ownVelocity
      else if (s.geometry.corners.get c).substitution = .axlePartner ∧ (s.cc.get c.partner).sensor = .valid then
        some (s.cc.get c.partner).ownVelocity
      else none := by
  unfold State.velocityUsed chosenVelocity
  cases (s.cc.get c).sensor with
  | valid => simp
  | lost =>
    cases (s.geometry.corners.get c).substitution <;> cases (s.cc.get c.partner).sensor <;> simp

/-! ## The segment in effect (R57) -/

theorem SlotState.isInEffect_eq (st : SlotState) (r : Role) :
    st.isInEffect r = match r with
      | .front => st == .frontLead || st == .frontOn
      | .rear => st == .rearLead || st == .rearOn := by
  cases r <;> cases st <;> rfl

/-- In a list in order the latest slot by start is the last one. -/
theorem foldl_laterStart_of_rising (b : Slot) (xs : List Slot)
    (rising : (b :: xs).Pairwise fun x y => ahead y.segment.start x.segment.start = true) :
    xs.foldl laterStart (some b) = (b :: xs).getLast? := by
  induction xs generalizing b with
  | nil => rfl
  | cons x xs ih =>
    obtain ⟨first, rest⟩ := List.pairwise_cons.1 rising
    have later : laterStart (some b) x = some x := if_pos (first x (by simp))
    rw [List.foldl_cons, later, ih x rest, List.getLast?_cons_cons]

theorem Store.inEffect_of_ordered {p : Store} (ordered : p.ordered) (c : Corner) :
    p.inEffect c = ((p.lists.get c.track).filter fun x => x.state.isInEffect c.role).getLast? := by
  have rising := (ordered c.track).filter fun x => x.state.isInEffect c.role
  unfold Store.inEffect inEffectOf
  cases list : (p.lists.get c.track).filter fun x => x.state.isInEffect c.role with
  | nil => rfl
  | cons x xs => exact foldl_laterStart_of_rising x xs (list ▸ rising)

/-! ## What the store folds into a slot (R60, R61, R66) -/

theorem Slot.present_of_not_on {x : Slot} {r : Role} (h : x.state.isOn r = false) (supplied : Option (Int × Int)) :
    x.present r supplied = x := by simp [Slot.present, h]

theorem Slot.present_none {x : Slot} {r : Role} (h : x.state.isOn r = true) :
    x.present r none = x.setRole r { x.role r with seen := true } := by simp [Slot.present, h]

theorem Slot.present_some {x : Slot} {r : Role} (h : x.state.isOn r = true) (height velocity : Int) :
    x.present r (some (height, velocity)) =
      x.setRole r (({ x.role r with seen := true } : RoleRecord).fold height velocity) := by simp [Slot.present, h]

/-- A fold keeps the greatest velocity and height and the least height. -/
theorem RoleRecord.fold_eq (r : RoleRecord) (height velocity : Int) :
    r.fold height velocity =
      { r with
        peakVelocity := some (max velocity.natAbs (r.peakVelocity.getD 0))
        heightMin := some (min height (r.heightMin.getD height))
        heightMax := some (max height (r.heightMax.getD height)) } := by
  have peak : (match r.peakVelocity with
      | none => velocity.natAbs
      | some v => if v < velocity.natAbs then velocity.natAbs else v)
        = max velocity.natAbs (r.peakVelocity.getD 0) := by
    cases r.peakVelocity with
    | none => simp
    | some v => simp only [Option.getD_some]; split <;> omega
  have low : (match r.heightMin with
      | none => height
      | some h => if height < h then height else h) = min height (r.heightMin.getD height) := by
    cases r.heightMin with
    | none => simp
    | some h => simp only [Option.getD_some]; split <;> omega
  have high : (match r.heightMax with
      | none => height
      | some h => if h < height then height else h) = max height (r.heightMax.getD height) := by
    cases r.heightMax with
    | none => simp
    | some h => simp only [Option.getD_some]; split <;> omega
  rw [← peak, ← low, ← high]
  rfl

@[simp] theorem Slot.present_serial (x : Slot) (r : Role) (supplied : Option (Int × Int)) :
    (x.present r supplied).serial = x.serial := by
  unfold Slot.present
  split
  · cases r <;> rfl
  · rfl

@[simp] theorem Slot.present_overrideUsed (x : Slot) (r : Role) (supplied : Option (Int × Int)) :
    (x.present r supplied).overrideUsed = x.overrideUsed := by
  unfold Slot.present
  split
  · cases r <;> rfl
  · rfl

/-- The store after an update of a corner is presented to it, with OVERRIDE_USED set in the slots that `marks` names. -/
def Store.presentMarking (p : Store) (c : Corner) (supplied : Option (Int × Int)) (marks : Slot → Bool) : Store :=
  { p with
    lists := p.lists.set c.track ((p.lists.get c.track).map fun y =>
      { y.present c.role supplied with overrideUsed := y.overrideUsed || marks y }) }

theorem Store.present_eq_presentMarking (p : Store) (c : Corner) (supplied : Option (Int × Int)) :
    p.present c supplied = p.presentMarking c supplied fun _ => false := by
  have same (y : Slot) :
      { y.present c.role supplied with overrideUsed := y.overrideUsed || false } = y.present c.role supplied := by
    rw [Bool.or_false, ← y.present_overrideUsed c.role supplied]
  simp only [Store.present, Store.presentMarking, same]

theorem Store.markOverride_present (p : Store) (c : Corner) (supplied : Option (Int × Int)) (serial : Nat) :
    (p.present c supplied).markOverride c.track serial
      = p.presentMarking c supplied fun y => decide (serial = y.serial) := by
  simp only [Store.present, Store.markOverride, Store.presentMarking, PerTrack.get_set_same, PerTrack.set_set,
    List.map_map]
  congr 3
  funext y
  rw [Function.comp_apply]
  split
  · rename_i named
    rw [decide_eq_true (named.symm.trans (y.present_serial c.role supplied)), Bool.or_true]
  · rename_i other
    rw [Slot.present_serial] at other
    rw [decide_eq_false (Ne.symm other), Bool.or_false, ← y.present_overrideUsed c.role supplied]

/-- A hand-over marks the slot in effect where it holds an override, and nothing else of the store (R66). -/
theorem State.handOver_store (s : State) (c : Corner) (inEffect : Option Slot) (d : Demand) :
    (s.handOver c inEffect d).pvs =
      match inEffect with
      | none => s.pvs
      | some z => if z.segment.override.isSome then s.pvs.markOverride c.track z.serial else s.pvs := by
  cases inEffect with
  | none => simp [State.handOver]
  | some z => by_cases o : z.segment.override.isSome = true <;> simp [State.handOver, o]

theorem DriverState.takesDemand_iff (d : DriverState) : d.takesDemand = true ↔ d = .drive ∨ d = .trim ∨ d = .hold := by
  cases d <;> simp [DriverState.takesDemand]

/-- What the store is after an update in RUN (R60, R66). -/
theorem State.updateInRun_store (s : State) (c : Corner) (raw : Int) :
    (s.updateInRun c raw).pvs =
      s.pvs.presentMarking c ((s.cc.get c).supplies ((s.geometry.corners.get c).height raw)) fun y =>
        decide ((s.vd.get c).state.takesDemand = true
          ∧ ∃ z, s.pvs.inEffect c = some z ∧ z.segment.override.isSome = true ∧ z.serial = y.serial) := by
  have effect : (s.updateSensor c raw).inEffect c = s.pvs.inEffect c := by simp [State.inEffect]
  simp only [State.updateInRun, State.bookkeep_frame, State.tellQuiet_frame, effect]
  cases computes : (s.vd.get c).state.takesDemand with
  | false => simp [Store.present_eq_presentMarking]
  | true =>
    rw [if_pos rfl, State.handOver_store]
    cases s.pvs.inEffect c with
    | none => simp [Store.present_eq_presentMarking]
    | some z =>
      by_cases overridden : z.segment.override.isSome = true
      · simp [overridden, Store.markOverride_present]
      · simp [overridden, Store.present_eq_presentMarking]

/-! ## The boundary test (R83, R85) -/

/-- The segment in effect is not the one of the corner's switch reference (R83). -/
theorem State.atBoundary_iff (s : State) (c : Corner) :
    s.atBoundary c = true ↔ ∀ y, s.pvs.inEffect c = some y → (s.cc.get c).switchReference ≠ .segment y.serial := by
  unfold State.atBoundary State.inEffect
  cases s.pvs.inEffect c <;> simp

/-- The boundary test lets a corner switch (R83). -/
abbrev State.switchesAtTest (s : State) (c : Corner) : Prop :=
  ((s.vd.get c).state = .drive ∨ (s.vd.get c).state = .trim)
    ∧ (∃ p, s.cfs.pendingProfile = some p ∧ (s.cc.get c).followed ≠ p)
    ∧ ∀ y, s.pvs.inEffect c = some y → (s.cc.get c).switchReference ≠ .segment y.serial

theorem State.boundaryTest_condition (s : State) (c : Corner) :
    ((s.vd.get c).state.drivesOrTrims = true ∧ s.hasSwitch c = true ∧ s.atBoundary c = true) ↔ s.switchesAtTest c := by
  rw [DriverState.drivesOrTrims_iff, State.hasSwitch_iff, State.atBoundary_iff]

theorem State.boundaryTest_switches {s : State} {c : Corner} (h : s.switchesAtTest c) :
    s.boundaryTest c = s.switchCorner c := if_pos ((s.boundaryTest_condition c).2 h)

theorem State.boundaryTest_keeps {s : State} {c : Corner} (h : ¬s.switchesAtTest c) : s.boundaryTest c = s :=
  if_neg (mt (s.boundaryTest_condition c).1 h)

/-- A switch of a corner is between any two states that agree with these in what it speaks of. -/
theorem State.hasSwitched_congr {s t s' t' : State} {c : Corner} (h : s.hasSwitched t c) (cfs : s'.cfs = s.cfs)
    (tod : s'.tod = s.tod) (others : ∀ e, e ≠ c → (s'.cc.get e).followed = (s.cc.get e).followed)
    (cfs' : t'.cfs = t.cfs)
    (selection : ∀ e, (t'.cc.get e).followed = (t.cc.get e).followed
      ∧ (t'.cc.get e).switchReference = (t.cc.get e).switchReference
      ∧ (t'.cc.get e).switchPosition = (t.cc.get e).switchPosition) : s'.hasSwitched t' c := by
  obtain ⟨p, pending, follows, unset, stands, last, notLast⟩ := h
  obtain ⟨followed, reference, _⟩ := selection c
  have position (e : Corner) := (selection e).2.2
  have here : s'.cornerPosition c = s.cornerPosition c := by
    simp only [State.cornerPosition, State.rolePosition, State.geometry, cfs, tod]
  refine ⟨p, cfs ▸ pending, followed.trans follows, reference.trans unset, ?_, fun all => ?_, fun some => ?_⟩
  · rw [position, stands, here]
  · simp only [cfs', cfs, position]
    exact last fun e n => (others e n).symm.trans (all e n)
  · obtain ⟨e, n, other⟩ := some
    rw [cfs', cfs]
    exact notLast ⟨e, n, others e n ▸ other⟩

/-- An update takes its corner's MISS notice (R64). -/
def State.noticeTaken (s : State) (c : Corner) : State := s.setCc c { s.cc.get c with missNotice := false }

/-- The state in which an update in RUN evaluates its sample: the MISS notice is taken and the boundary test made (R90). -/
def State.boundaryTested (s : State) (c : Corner) : State := (s.noticeTaken c).boundaryTest c

theorem State.switchesAtTest_noticeTaken (s : State) (c : Corner) :
    (s.noticeTaken c).switchesAtTest c ↔ s.switchesAtTest c := by
  simp [State.switchesAtTest, State.noticeTaken]

theorem State.updateSensor_eq (s : State) (c : Corner) (raw : Int) :
    s.updateSensor c raw = (s.boundaryTested c).setCc c
      (((s.boundaryTested c).cc.get c).sampled ((s.geometry.corners.get c).height raw)) := rfl

theorem State.boundaryTested_switched {s : State} {c : Corner} (h : s.switchesAtTest c) :
    s.hasSwitched (s.boundaryTested c) c := by
  obtain ⟨_, ⟨p, pending, _⟩, _⟩ := id h
  rw [State.boundaryTested, State.boundaryTest_switches ((s.switchesAtTest_noticeTaken c).2 h)]
  exact State.hasSwitched_congr (State.switchCorner_spec (s := s.noticeTaken c) pending).1 rfl rfl
    (fun e n => by simp [State.noticeTaken, n]) rfl fun _ => ⟨rfl, rfl, rfl⟩

theorem State.boundaryTested_kept {s : State} {c : Corner} (h : ¬s.switchesAtTest c) :
    s.boundaryTested c = s.noticeTaken c :=
  State.boundaryTest_keeps (mt (s.switchesAtTest_noticeTaken c).1 h)

/-- The boundary test writes a corner's profile selection alone. -/
theorem State.boundaryTested_cc (s : State) (c : Corner) :
    ∃ followed switchReference switchPosition, (s.boundaryTested c).cc = s.cc.set c
      { s.cc.get c with missNotice := false, followed, switchReference, switchPosition } := by
  by_cases h : s.switchesAtTest c
  · obtain ⟨_, ⟨p, pending, _⟩, _⟩ := id h
    rw [State.boundaryTested, State.boundaryTest_switches ((s.switchesAtTest_noticeTaken c).2 h),
      (State.switchCorner_spec (s := s.noticeTaken c) pending).2]
    simp only [State.noticeTaken, State.setCc_cc, PerCorner.get_set_same, PerCorner.set_set]
    exact ⟨_, _, _, rfl⟩
  · rw [State.boundaryTested_kept h]
    exact ⟨_, _, _, rfl⟩

/-! ## The corner after the update (R83 to R98) -/

theorem State.handOver_cc (s : State) (c : Corner) (inEffect : Option Slot) (d : Demand) :
    (s.handOver c inEffect d).cc = s.cc.set c { s.cc.get c with lastDemand := d.final } := by
  unfold State.handOver
  (repeat' split) <;> simp

/-- After the sample an update in RUN writes a corner's last demand, conditions, bits and origin alone. -/
theorem State.updateInRun_cc (s : State) (c : Corner) (raw : Int) :
    ∃ lastDemand conditions bits origin, (s.updateInRun c raw).cc = (s.boundaryTested c).cc.set c
      { ((s.boundaryTested c).cc.get c).sampled ((s.geometry.corners.get c).height raw) with
        lastDemand, conditions, bits, origin } := by
  simp only [State.updateInRun, State.bookkeep, State.setCc_cc, State.tellQuiet_frame, Cc.accrue]
  split
  · simp only [State.handOver_cc, State.setPvs_cc, State.updateSensor_eq, State.setCc_cc, PerCorner.get_set_same,
      PerCorner.set_set]
    exact ⟨_, _, _, _, rfl⟩
  · simp only [State.setPvs_cc, State.updateSensor_eq, State.setCc_cc, PerCorner.get_set_same, PerCorner.set_set]
    exact ⟨_, _, _, _, rfl⟩

/-- The profile selection after an update in RUN is that of its boundary test. -/
theorem State.updateInRun_selection (s : State) (c : Corner) (raw : Int) :
    (s.updateInRun c raw).cfs = (s.boundaryTested c).cfs
      ∧ ∀ e, ((s.updateInRun c raw).cc.get e).followed = ((s.boundaryTested c).cc.get e).followed
        ∧ ((s.updateInRun c raw).cc.get e).switchReference = ((s.boundaryTested c).cc.get e).switchReference
        ∧ ((s.updateInRun c raw).cc.get e).switchPosition = ((s.boundaryTested c).cc.get e).switchPosition := by
  refine ⟨?_, fun e => ?_⟩
  · simp only [State.updateInRun, State.bookkeep_frame, State.tellQuiet_frame]
    split <;> simp [State.updateSensor_eq]
  · obtain ⟨_, _, _, _, cc⟩ := s.updateInRun_cc c raw
    rw [cc, PerCorner.get_set]
    split
    · rename_i same
      subst same
      exact ⟨rfl, rfl, rfl⟩
    · exact ⟨rfl, rfl, rfl⟩

theorem State.updateInRun_switched {s : State} {c : Corner} (raw : Int) (h : s.switchesAtTest c) :
    s.hasSwitched (s.updateInRun c raw) c := by
  obtain ⟨cfs, selection⟩ := s.updateInRun_selection c raw
  exact State.hasSwitched_congr (State.boundaryTested_switched h) rfl rfl (fun _ _ => rfl) cfs selection

theorem State.updateInRun_kept {s : State} {c : Corner} (raw : Int) (h : ¬s.switchesAtTest c) :
    s.keepsProfile (s.updateInRun c raw) c := by
  obtain ⟨cfs, selection⟩ := s.updateInRun_selection c raw
  obtain ⟨followed, reference, position⟩ := selection c
  rw [State.boundaryTested_kept h] at cfs followed reference position
  rw [State.noticeTaken, State.setCc_cc, PerCorner.get_set_same] at followed reference position
  exact ⟨followed, reference, position, cfs⟩

/-- What an update in RUN leaves of its sample (R92 to R95). -/
theorem State.updateInRun_sampled (s : State) (c : Corner) (raw : Int) :
    let x := s.cc.get c
    let height := (s.geometry.corners.get c).height raw
    let y := (s.updateInRun c raw).cc.get c
    y.sensor = x.nextSensor height ∧ y.previousHeight = height ∧ y.badRun = x.nextBadRun height
      ∧ y.ownVelocity = (x.formed height).getD x.ownVelocity ∧ y.goodRun = x.nextGoodRun height := by
  obtain ⟨_, _, _, tested⟩ := s.boundaryTested_cc c
  obtain ⟨_, _, _, _, cc⟩ := s.updateInRun_cc c raw
  rw [tested, PerCorner.get_set_same] at cc
  rw [cc, PerCorner.get_set_same]
  exact ⟨rfl, rfl, rfl, rfl, rfl⟩

/-- An update in RUN, while the reset input is not held. -/
theorem exec_update_run {s : State} (free : s.resetHeld = false) (run : s.mdc.mode = .run) (c : Corner) (raw : Int) :
    exec (.update c raw) s = .next (s.updateInRun c raw) :=
  congrArg Host.Outcome.next ((State.unlessHeld_free free _).trans (if_pos run))

/-- Settles O43: the corner after the update by `State.updateInRun_sampled`, its switch by the boundary test, the store by
`State.updateInRun_store`; the segment in effect, the velocity and the fold by their own equations. -/
theorem updateInRunEvaluatesSensorAndSegments : Obligations.UpdateInRunEvaluatesSensorAndSegments := by
  refine ⟨fun s c raw free run => ?_, fun p c ordered => ?_, State.velocityUsed_eq, fun y r => ⟨?_, fun on => ⟨?_, ?_⟩⟩⟩
  · intro x entry good height velocity sensor supplied computes switches
    obtain ⟨sensed, previous, badRun, ownVelocity, goodRun⟩ := s.updateInRun_sampled c raw
    have sensorIs : x.nextSensor (entry.height raw) = sensor := x.nextSensor_height entry raw
    have velocityIs : x.formed (entry.height raw) = velocity := x.formed_height entry raw
    have suppliedIs := x.supplies_eq (entry.height raw)
    rw [velocityIs, sensorIs] at suppliedIs
    have goodRunIs := x.nextGoodRun_height entry raw
    rw [sensorIs] at goodRunIs
    have store := s.updateInRun_store c raw
    simp only [DriverState.takesDemand_iff] at store
    exact ⟨_, exec_update_run free run c raw, sensed.trans sensorIs, previous,
      badRun.trans (x.nextBadRun_height entry raw), ownVelocity.trans (by rw [velocityIs]), goodRun.trans goodRunIs,
      State.updateInRun_switched raw, State.updateInRun_kept raw,
      store.trans (congrArg (s.pvs.presentMarking c · _) suppliedIs)⟩
  · have latest := Store.inEffect_of_ordered ordered c
    simp only [SlotState.isInEffect_eq] at latest
    exact latest
  · exact Slot.present_of_not_on
  · exact Slot.present_none on
  · intro h v
    rw [Slot.present_some on, RoleRecord.fold_eq]

end Sys2Proof.Machine
end

section
/-! Ride Profiles (chapter 04): what the switch operations do, one equation per case; SELECT_PROFILE and the preview
demand of a segment. -/

namespace Sys2Proof.Machine

/-! ## The end of a switch (R85) -/

section CompleteSwitch

variable {s : State}

theorem State.completeSwitch_none (h : s.cfs.pendingProfile = none) : s.completeSwitch = s := by
  simp [State.completeSwitch, h]

/-- Where every corner follows the pending profile the switch completes, with its PROFILE report. -/
theorem State.completeSwitch_last {p : ProfileName} (h : s.cfs.pendingProfile = some p)
    (all : ∀ c, (s.cc.get c).followed = p) :
    s.completeSwitch = s.setCfs
      { s.cfs with
        active := p, pendingProfile := none
        profileMarker := some
          { active := p, previous := s.cfs.active
            positions := PerCorner.of fun c => (s.cc.get c).switchPosition } } := by
  simp [State.completeSwitch, h, (s.allFollow_iff p).2 all]

/-- Where a corner still follows another profile the switch goes on. -/
theorem State.completeSwitch_notLast {p : ProfileName} (h : s.cfs.pendingProfile = some p)
    (other : ∃ c, (s.cc.get c).followed ≠ p) : s.completeSwitch = s := by
  obtain ⟨c, n⟩ := other
  have notAll : ¬s.allFollow p = true := fun all => n ((s.allFollow_iff p).1 all c)
  simp [State.completeSwitch, h, notAll]

end CompleteSwitch

theorem State.follows_of_selectionAgrees {s : State} (h : s.selectionAgrees) (idle : s.cfs.pendingProfile = none)
    (c : Corner) : (s.cc.get c).followed = s.cfs.active := by
  rw [State.selectionAgrees, idle] at h
  exact h c

/-! ## Every corner in turn -/

/-- Corner after corner written, each with a value that no other corner's write bears on: every corner is written. -/
theorem foldl_corners_cc {s : State} {f : State → Corner → State} {g : Corner → Cc}
    (writes : ∀ (m : PerCorner Cc) (c : Corner), m.get c = s.cc.get c →
      f { s with cc := m } c = { s with cc := m.set c (g c) }) :
    corners.foldl f s = { s with cc := PerCorner.of g } := by
  have one : f s .fl = { s with cc := s.cc.set .fl (g .fl) } := writes s.cc .fl rfl
  have two := writes (s.cc.set .fl (g .fl)) .fr rfl
  have three := writes ((s.cc.set .fl (g .fl)).set .fr (g .fr)) .rl rfl
  have four := writes (((s.cc.set .fl (g .fl)).set .fr (g .fr)).set .rl (g .rl)) .rr rfl
  simp only [corners, List.foldl_cons, List.foldl_nil, one, two, three, four]
  rfl

/-! ## The switch that begins (R82, R85) -/

/-- What a corner becomes where a switch to a profile begins (R82). -/
def State.begun (s : State) (p : ProfileName) (c : Corner) : Cc :=
  if (s.vd.get c).state.drivesOrTrims then { s.cc.get c with switchReference := s.referenceNow c }
  else { s.cc.get c with followed := p, switchReference := .notSet, switchPosition := some (s.cornerPosition c) }

/-- The state in which every corner has begun a switch, before it is found whether the switch is complete. -/
def State.allBegun (s : State) (p : ProfileName) : State :=
  { s with cfs := { s.cfs with pendingProfile := some p }, cc := PerCorner.of (s.begun p) }

theorem State.beginSwitch_eq (s : State) (p : ProfileName) : s.beginSwitch p = (s.allBegun p).completeSwitch := by
  rw [State.beginSwitch, foldl_corners_cc (g := s.begun p) fun m c same => ?_]
  · rfl
  · simp only [State.setCfs, State.beginAtCorner, State.begun, State.takePending, same]
    split <;> rfl

section BeginSwitch

variable {s : State} {p : ProfileName}

/-- With a driver in DRIVE or TRIM, whose corner follows another profile, the switch is pending after it begins. -/
theorem State.beginSwitch_pends {c : Corner} (drives : (s.vd.get c).state.drivesOrTrims = true)
    (other : (s.cc.get c).followed ≠ p) : s.beginSwitch p = s.allBegun p := by
  rw [State.beginSwitch_eq]
  exact State.completeSwitch_notLast rfl ⟨c, by simpa [State.allBegun, State.begun, drives] using other⟩

/-- With no driver in DRIVE or TRIM the switch completes as it begins. -/
theorem State.beginSwitch_completes (still : ∀ c, (s.vd.get c).state.drivesOrTrims = false) :
    s.beginSwitch p = (s.allBegun p).setCfs
      { s.cfs with
        active := p, pendingProfile := none
        profileMarker := some
          { active := p, previous := s.cfs.active
            positions := PerCorner.of fun c => some (s.cornerPosition c) } } := by
  rw [State.beginSwitch_eq, State.completeSwitch_last rfl fun c => by simp [State.allBegun, State.begun, still]]
  simp [State.allBegun, State.begun, still]

end BeginSwitch

/-! ## SELECT_PROFILE (R80 to R82) -/

theorem profileOf_of_one_lt {b : Byte} (h : 1 < b.toNat) : profileOf b = none := by
  obtain ⟨not0, not1⟩ : b ≠ 0 ∧ b ≠ 1 := by bv_omega
  rw [profileOf, if_neg not0, if_neg not1]

/-- A delivered SELECT_PROFILE is judged, and its reply placed. -/
theorem exec_selectProfile {s : State} (h : s.delivers) (target : Byte) :
    exec (.selectProfile target) s
      = .next ((judgeSelectProfile target s.delivered).1.place (.reply (judgeSelectProfile target s.delivered).2)) :=
  congrArg Host.Outcome.next (State.takeRequest_delivers h (judgeSelectProfile target))

section JudgeSelectProfile

variable {s : State} {target : Byte} {p : ProfileName}

theorem judgeSelectProfile_safe (safe : s.mdc.mode = .safe) :
    judgeSelectProfile target s = (s, s.selectReply .mode target) := if_pos safe

theorem judgeSelectProfile_range (notSafe : s.mdc.mode ≠ .safe) (h : profileOf target = none) :
    judgeSelectProfile target s = (s, s.selectReply .range target) := by
  simp [judgeSelectProfile, notSafe, h]

theorem judgeSelectProfile_active (notSafe : s.mdc.mode ≠ .safe) (h : profileOf target = some p)
    (idle : s.cfs.pendingProfile = none) (same : p = s.cfs.active) :
    judgeSelectProfile target s = (s, s.selectReply .ok target) := by
  simp [judgeSelectProfile, notSafe, h, idle, same]

theorem judgeSelectProfile_pending (notSafe : s.mdc.mode ≠ .safe) (h : profileOf target = some p)
    (pending : s.cfs.pendingProfile = some p) : judgeSelectProfile target s = (s, s.selectReply .ok target) := by
  simp [judgeSelectProfile, notSafe, h, pending]

theorem judgeSelectProfile_busy {q : ProfileName} (notSafe : s.mdc.mode ≠ .safe) (h : profileOf target = some p)
    (pending : s.cfs.pendingProfile = some q) (other : q ≠ p) :
    judgeSelectProfile target s = (s, s.selectReply .busy target) := by
  simp [judgeSelectProfile, notSafe, h, pending, other]

theorem judgeSelectProfile_accepts (notSafe : s.mdc.mode ≠ .safe) (h : profileOf target = some p)
    (idle : s.cfs.pendingProfile = none) (other : p ≠ s.cfs.active) :
    judgeSelectProfile target s = (s.acceptSwitch p, (s.acceptSwitch p).selectReply .ok target) := by
  simp [judgeSelectProfile, notSafe, h, idle, other]

end JudgeSelectProfile

theorem State.acceptSwitch_immediate {s : State} (h : s.mdc.mode = .config ∨ s.mdc.mode = .standby)
    (p : ProfileName) :
    s.acceptSwitch p = s.immediateSwitch p := by
  rcases h with h | h <;> simp [State.acceptSwitch, h]

theorem State.acceptSwitch_begins {s : State} (h : s.mdc.mode = .starting ∨ s.mdc.mode = .run) (p : ProfileName) :
    s.acceptSwitch p = s.beginSwitch p := by
  rcases h with h | h <;> simp [State.acceptSwitch, h]

@[simp] theorem State.delivered_cornerPosition (s : State) (c : Corner) :
    s.delivered.cornerPosition c = s.cornerPosition c := by
  simp [State.cornerPosition, State.rolePosition, State.geometry]

/-- What a corner begins a switch from reads the same at the delivery of a request. -/
theorem State.delivered_begun (s : State) (p : ProfileName) : s.delivered.begun p = s.begun p := by
  funext c
  simp [State.begun, State.referenceNow, State.inEffect, Store.inEffect]

theorem State.begun_eq (s : State) (p : ProfileName) (c : Corner) :
    s.begun p c =
      if (s.vd.get c).state = .drive ∨ (s.vd.get c).state = .trim then
        { s.cc.get c with switchReference := s.referenceNow c }
      else
        { s.cc.get c with
          followed := p, switchReference := .notSet, switchPosition := some (s.cornerPosition c) } := by
  simp only [State.begun, DriverState.drivesOrTrims_iff]

/-- Settles O39: the judgement's case, and for an accepted switch the equation of the switch it makes. -/
theorem selectProfileSwitchesCornerByCorner : Obligations.SelectProfileSwitchesCornerByCorner := by
  intro s target delivers
  have mode : s.delivered.mdc.mode = s.mdc.mode := by simp
  have cfs : s.delivered.cfs = s.cfs := by simp
  have cc : s.delivered.cc = s.cc := by simp
  have vd : s.delivered.vd = s.vd := by simp
  rw [exec_selectProfile delivers, ← mode, ← cfs]
  refine ⟨fun safe => ?_, fun notSafe out => ?_, fun notSafe p named => ⟨fun idle same => ?_, fun pending => ?_,
    fun q pending other => ?_, fun idle other still => ?_, fun idle other moves agrees => ?_⟩⟩
  · rw [judgeSelectProfile_safe safe]; rfl
  · rw [judgeSelectProfile_range notSafe (profileOf_of_one_lt out)]; rfl
  · rw [judgeSelectProfile_active notSafe named idle same]; rfl
  · rw [judgeSelectProfile_pending notSafe named pending]; rfl
  · rw [judgeSelectProfile_busy notSafe named pending other]; rfl
  · rw [judgeSelectProfile_accepts notSafe named idle other, State.acceptSwitch_immediate still, State.immediateSwitch,
      ← idle, ← cc]
    rfl
  · rw [judgeSelectProfile_accepts notSafe named idle other, State.acceptSwitch_begins moves]
    have begun : PerCorner.of (s.delivered.begun p) = PerCorner.of _ :=
      congrArg _ ((s.delivered_begun p).trans (funext (s.begun_eq p)))
    intro drives _
    refine ⟨fun ⟨c, driven⟩ => ?_, fun still => ?_⟩
    · have follows : (s.delivered.cc.get c).followed ≠ p := by
        rw [cc, State.follows_of_selectionAgrees agrees (cfs ▸ idle) c, ← cfs]
        exact other.symm
      have driven : (s.delivered.vd.get c).state.drivesOrTrims = true := by
        simpa [DriverState.drivesOrTrims_iff] using driven
      rw [State.beginSwitch_pends driven follows, State.allBegun, begun]
      rfl
    · have still (c : Corner) : (s.delivered.vd.get c).state.drivesOrTrims = false := by
        rw [vd, ← Bool.not_eq_true, DriverState.drivesOrTrims_iff]
        exact still c
      rw [State.beginSwitch_completes still, State.allBegun, begun]
      simp only [State.delivered_cornerPosition]
      rfl

/-! ## The preview demand (R75 to R78) -/

theorem sampleIndex_eq {count : Nat} (_ : 0 < count) (length offset : Nat) :
    sampleIndex count length offset = min (offset * count / length) (count - 1) := by
  unfold sampleIndex
  split <;> omega

theorem capDemand_eq (n : Nat) : capDemand n = min 1000 n := by
  unfold capDemand
  split <;> omega

/-- Within a list the default of a read does not matter. -/
theorem getD_of_lt {α : Type} {xs : List α} {n : Nat} (h : n < xs.length) (d e : α) : xs.getD n d = xs.getD n e := by
  rw [List.getD_eq_getElem?_getD, List.getD_eq_getElem?_getD, List.getElem?_eq_getElem h, Option.getD_some,
    Option.getD_some]

/-- The local amplitude: the segment's own without samples, else the sample nearest the corner while it is on the
segment, and the first sample while it is not (R76). -/
theorem Slot.localAmplitude_eq (x : Slot) (r : Role) (position : Position) :
    x.localAmplitude r position =
      if x.segment.samples.length = 0 then x.segment.amplitude
      else if x.state.isOn r = true then
        x.segment.samples.getD
          (min (difference position x.segment.start * x.segment.samples.length / x.segment.length)
            (x.segment.samples.length - 1)) 0
      else x.segment.samples.getD 0 0 := by
  unfold Slot.localAmplitude
  cases x.segment.samples with
  | nil => rfl
  | cons first rest =>
    have within (n : Nat) : min n (rest.length + 1 - 1) < (first :: rest).length := by
      rw [List.length_cons]
      omega
    rw [List.length_cons, if_neg (Nat.add_one_ne_zero rest.length), getD_of_lt (within _) 0 first,
      ← sampleIndex_eq (Nat.add_one_pos rest.length)]
    rfl

theorem roughTerm_eq (p : Profile) (g : Segment) :
    roughTerm p g = if p.treats g = .rough then (p.rowFor g).roughStep * g.roughIntensity.getD 0 else 0 := by
  unfold roughTerm
  cases p.treats g <;> rfl

theorem ResponseRow.base_eq (w : ResponseRow) (r : Role) :
    w.base r = match r with
      | .front => w.frontBase
      | .rear => w.rearBase := by
  cases r <;> rfl

theorem Slot.previewDemand_override {x : Slot} {o : Override} (h : x.segment.override = some o) (p : Profile) (r : Role)
    (position : Position) : x.previewDemand p r position = o.demand r := by
  simp only [Slot.previewDemand, h]

theorem Slot.previewDemand_row {x : Slot} (h : x.segment.override = none) (p : Profile) (r : Role)
    (position : Position) :
    x.previewDemand p r position =
      min 1000 ((p.rowFor x.segment).base r + (p.rowFor x.segment).slope * (x.localAmplitude r position).natAbs
        + roughTerm p x.segment) := by
  simp only [Slot.previewDemand, h, capDemand_eq]

theorem SlotState.isOn_front_iff (st : SlotState) : st.isOn .front = true ↔ st = .frontOn := by
  cases st <;> simp [SlotState.isOn]

theorem SlotState.isOn_rear_iff (st : SlotState) : st.isOn .rear = true ↔ st = .rearOn := by
  cases st <;> simp [SlotState.isOn]

/-- Settles O40: the two cases of the demand, with the amplitude and the rough term by their own equations. -/
theorem previewDemandOfASegment : Obligations.PreviewDemandOfASegment := by
  intro x p r position g kind row base n amplitude rough
  refine ⟨fun o held => ?_, fun free => ?_, rfl, rfl, SlotState.isOn_front_iff x.state,
    SlotState.isOn_rear_iff x.state⟩
  · rw [Slot.previewDemand_override held]
    cases r <;> rfl
  · have amplitudeIs : x.localAmplitude r position = amplitude := x.localAmplitude_eq r position
    have roughIs : roughTerm p g = rough := roughTerm_eq p g
    have baseIs : row.base r = base := row.base_eq r
    rw [Slot.previewDemand_row free, amplitudeIs, roughIs, ← baseIs]
    rfl

end Sys2Proof.Machine
end

section
/-! Entry to FAULTED (chapter 08, R84): what it does to its driver, its corner and the Mode Controller's counts, and the
Mode Controller's answer, RUN or SAFE. -/

namespace Sys2Proof.Machine

/-! ## A driver leaves its state (R84) -/

section Leaving

variable {s : State} {c : Corner} {former : DriverState}

/-- A driver that leaves a state makes its corner switch (R84). -/
abbrev State.switchesOnLeaving (s : State) (c : Corner) (former : DriverState) : Prop :=
  s.mdc.mode = .run ∧ (former = .drive ∨ former = .trim)
    ∧ ∃ p, s.cfs.pendingProfile = some p ∧ (s.cc.get c).followed ≠ p

theorem State.driverLeft_condition :
    (former.drivesOrTrims = true ∧ s.mdc.mode = .run ∧ s.hasSwitch c = true) ↔ s.switchesOnLeaving c former := by
  rw [DriverState.drivesOrTrims_iff, State.hasSwitch_iff, and_left_comm]

theorem State.driverLeft_switches (h : s.switchesOnLeaving c former) : s.driverLeft c former = s.switchCorner c :=
  if_pos (State.driverLeft_condition.2 h)

theorem State.driverLeft_keeps (h : ¬s.switchesOnLeaving c former) : s.driverLeft c former = s :=
  if_neg (mt State.driverLeft_condition.1 h)

theorem State.driverLeft_idle (idle : s.cfs.pendingProfile = none) : s.driverLeft c former = s :=
  State.driverLeft_keeps fun ⟨_, _, _, pending, _⟩ => by simp [idle] at pending

/-- A driver that leaves its state has no bearing on a corner but on the profile selection of its own. -/
theorem State.driverLeft_cc (s : State) (c : Corner) (former : DriverState) :
    ∃ followed switchReference switchPosition, (s.driverLeft c former).cc = s.cc.set c
      { s.cc.get c with followed, switchReference, switchPosition } := by
  by_cases h : s.switchesOnLeaving c former
  · obtain ⟨_, _, p, pending, _⟩ := id h
    rw [State.driverLeft_switches h, (State.switchCorner_spec pending).2]
    exact ⟨_, _, _, rfl⟩
  · rw [State.driverLeft_keeps h]
    exact ⟨_, _, _, (s.cc.set_get c).symm⟩

end Leaving

/-! ## The profile kept (R79) -/

theorem State.keepsProfile_of_cc {s t : State} {c : Corner} (cfs : t.cfs = s.cfs) (cc : t.cc = s.cc) :
    s.keepsProfile t c := by
  simp [State.keepsProfile, cfs, cc]

theorem State.keepsProfile_trans {s t u : State} {c : Corner} (h : s.keepsProfile t c) (k : t.keepsProfile u c) :
    s.keepsProfile u c := by
  obtain ⟨f, r, p, cfs⟩ := h
  obtain ⟨f', r', p', cfs'⟩ := k
  exact ⟨f'.trans f, r'.trans r, p'.trans p, cfs'.trans cfs⟩

/-- A write of a corner that leaves its profile selection. -/
theorem State.keepsProfile_setCc {s : State} {d : Corner} {x : Cc} (followed : x.followed = (s.cc.get d).followed)
    (reference : x.switchReference = (s.cc.get d).switchReference)
    (position : x.switchPosition = (s.cc.get d).switchPosition) (c : Corner) : s.keepsProfile (s.setCc d x) c := by
  by_cases same : c = d
  · subst same
    simp [State.keepsProfile, followed, reference, position]
  · simp [State.keepsProfile, same]

/-! ## Entry to RUN, for a driver that is not ARMED and a part with no switch to make (R135, R171) -/

theorem State.armedToRun_notArmed {s : State} {c : Corner} (h : (s.vd.get c).state ≠ .armed) : s.armedToRun c = s :=
  if_neg h

section OtherDriver

variable {s : State} {c d : Corner} (h : c ≠ d)

include h

theorem State.startTrimSchedule_vd_ne : (s.startTrimSchedule d).vd.get c = s.vd.get c := by
  simp [State.startTrimSchedule, h]

theorem State.enterDriveAtFloor_vd_ne : (s.enterDriveAtFloor d).vd.get c = s.vd.get c := by
  simp [State.enterDriveAtFloor, h]

theorem State.enterHold_vd_ne : (s.enterHold d).vd.get c = s.vd.get c := by
  simp [State.enterHold, h]

/-- A driver in ARMED that enters DRIVE, and HOLD if it is hot, leaves the other drivers alone. -/
theorem State.armedToRun_vd_ne : (s.armedToRun d).vd.get c = s.vd.get c := by
  simp only [State.armedToRun]
  split
  · split
    · rw [State.enterHold_vd_ne h, State.enterDriveAtFloor_vd_ne h, State.startTrimSchedule_vd_ne h]
    · rw [State.enterDriveAtFloor_vd_ne h, State.startTrimSchedule_vd_ne h]
  · rfl

end OtherDriver

theorem State.armedToRun_vd {s : State} {c : Corner} (h : (s.vd.get c).state ≠ .armed) (d : Corner) :
    (s.armedToRun d).vd.get c = s.vd.get c := by
  by_cases same : c = d
  · rw [← same, State.armedToRun_notArmed h]
  · exact State.armedToRun_vd_ne same

theorem State.foldl_armedToRun_vd {s : State} {c : Corner} (h : (s.vd.get c).state ≠ .armed) (l : List Corner) :
    (l.foldl State.armedToRun s).vd.get c = s.vd.get c := by
  induction l generalizing s with
  | nil => rfl
  | cons d l ih =>
    have kept := State.armedToRun_vd h d
    rw [List.foldl_cons, ih (by rwa [kept]), kept]

/-- Entry to RUN leaves of a driver that is not ARMED what it sets for every driver. -/
theorem State.enterRun_vd {s : State} {c : Corner} (h : (s.vd.get c).state ≠ .armed) :
    s.enterRun.vd.get c = (s.vd.get c).atRun := by
  simp only [State.enterRun, State.makeModeReport_frame]
  rw [State.foldl_armedToRun_vd (by simpa [Vd.atRun] using h)]
  simp

theorem State.keepsProfile_enterDriveAtFloor (s : State) (c d : Corner) : s.keepsProfile (s.enterDriveAtFloor d) c := by
  rw [State.enterDriveAtFloor]
  refine State.keepsProfile_trans (State.keepsProfile_of_cc rfl rfl) (State.keepsProfile_setCc ?_ ?_ ?_ c) <;> rfl

/-- Entry to HOLD makes no corner switch where no switch is pending. -/
theorem State.keepsProfile_enterHold {s : State} (idle : s.cfs.pendingProfile = none) (c d : Corner) :
    s.keepsProfile (s.enterHold d) c := by
  rw [State.enterHold, State.driverLeft_idle (by exact idle)]
  exact State.keepsProfile_of_cc rfl rfl

theorem State.keepsProfile_armedToRun {s : State} (idle : s.cfs.pendingProfile = none) (c d : Corner) :
    s.keepsProfile (s.armedToRun d) c := by
  have entered : s.keepsProfile ((s.startTrimSchedule d).enterDriveAtFloor d) c :=
    State.keepsProfile_trans (State.keepsProfile_of_cc rfl rfl) (State.keepsProfile_enterDriveAtFloor _ c d)
  simp only [State.armedToRun]
  split
  · split
    · exact State.keepsProfile_trans entered (State.keepsProfile_enterHold (by simpa using idle) c d)
    · exact entered
  · exact State.keepsProfile_of_cc rfl rfl

theorem State.keepsProfile_foldl_armedToRun {s : State} (idle : s.cfs.pendingProfile = none) (c : Corner)
    (l : List Corner) : s.keepsProfile (l.foldl State.armedToRun s) c := by
  induction l generalizing s with
  | nil => exact State.keepsProfile_of_cc rfl rfl
  | cons d l ih =>
    have kept := State.keepsProfile_armedToRun idle c d
    exact State.keepsProfile_trans kept (ih (by rwa [kept.2.2.2]))

theorem State.keepsProfile_enterRun {s : State} (idle : s.cfs.pendingProfile = none) (c : Corner) :
    s.keepsProfile s.enterRun c := by
  refine State.keepsProfile_trans (t := (((s.setMdc { s.mdc with mode := .run }).setPvs
    { s.pvs with preview := .active }).mapCc fun _ x => x.atRun).mapVd fun _ v => v.atRun) ?_
    (State.keepsProfile_trans (State.keepsProfile_foldl_armedToRun ?_ c corners) (State.keepsProfile_of_cc ?_ ?_))
  · simp [State.keepsProfile, Cc.atRun]
  · exact idle
  · simp [State.enterRun]
  · simp [State.enterRun]

/-! ## Entry to SAFE (R109, R149, R162, R163, R175) -/

@[simp] theorem State.enterSafe_vd (s : State) : s.enterSafe.vd = PerCorner.of fun c => (s.vd.get c).atSafe := by
  simp [State.enterSafe]

@[simp] theorem State.enterSafe_cc (s : State) :
    s.enterSafe.cc = PerCorner.of fun c => { s.cc.get c with previousHeight := none } := by
  simp [State.enterSafe]

theorem State.enterSafe_mdc (s : State) :
    s.enterSafe.mdc =
      { s.mdc with
        mode := .safe, supersededCount := s.mdc.nextSuperseded
        marker := some
          { cause := .secondFault, mode := .safe, previous := s.mdc.mode, preview := .suspended
            faultedCount := s.mdc.faultedCount, superseded := s.mdc.nextSuperseded } } := rfl

theorem State.keepsProfile_enterSafe (s : State) (c : Corner) : s.keepsProfile s.enterSafe c := by
  simp [State.keepsProfile]

/-! ## The Mode Controller's answer (R161, R171) -/

theorem State.escalate_second {s : State} (h : 2 ≤ s.mdc.faultedCount) : s.escalate = s.enterSafe := if_pos h

theorem State.escalate_first {s : State} (h : s.mdc.faultedCount < 2) : s.escalate = s.runIfChecked :=
  if_neg (Nat.not_le.2 h)

theorem State.runIfChecked_notStarting {s : State} (h : s.mdc.mode ≠ .starting) : s.runIfChecked = s :=
  if_neg fun both => h both.1

/-- A driver that FAULTED has left at rest keeps all but its quiet copy. -/
theorem State.escalate_vd {s : State} {c : Corner} (rest : (s.vd.get c).atRest .faulted = s.vd.get c) :
    ∃ quiet, s.escalate.vd.get c = { s.vd.get c with quiet } := by
  have faulted : (s.vd.get c).state = .faulted := by rw [← rest]; rfl
  by_cases second : 2 ≤ s.mdc.faultedCount
  · rw [State.escalate_second second, State.enterSafe_vd, PerCorner.get_of, Vd.atSafe, if_pos faulted, rest]
    exact ⟨true, rfl⟩
  rw [State.escalate_first (Nat.lt_of_not_le second), State.runIfChecked]
  split
  · rw [State.enterRun_vd (by simp [faulted]), ← rest]
    exact ⟨true, rfl⟩
  · exact ⟨_, rfl⟩

/-- The answer makes no corner switch, where no switch is pending in STARTING (R82). -/
theorem State.keepsProfile_escalate {s : State} (idle : s.mdc.mode = .starting → s.cfs.pendingProfile = none)
    (c : Corner) : s.keepsProfile s.escalate c := by
  unfold State.escalate State.runIfChecked
  split
  · exact s.keepsProfile_enterSafe c
  · split
    · rename_i _ checked
      exact State.keepsProfile_enterRun (idle checked.1) c
    · exact State.keepsProfile_of_cc rfl rfl

/-! ## Entry to FAULTED (R84, R153 to R156, R160) -/

theorem Vd.nextRetry_eq (v : Vd) : v.nextRetry = min 3 (v.retryCount + 1) := by
  unfold Vd.nextRetry
  split <;> omega

theorem State.tellFaulted_mdc (s : State) (c : Corner) (former : DriverState) :
    (s.tellFaulted c former).mdc =
      { s.mdc with
        faultedCount := s.mdc.faultedCount + 1
        checkEnds :=
          if former = .checking ∧ s.mdc.mode = .starting then s.mdc.checkEnds.set c (some .faulted)
          else s.mdc.checkEnds } := by
  simp only [State.tellFaulted]
  split <;> rfl

/-- A fault as its driver, its corner and the counts have taken it, before the Mode Controller answers (R153). -/
def State.tookFault (s : State) (c : Corner) (kind : FaultKind) (measured : Nat) : State :=
  ((s.setVd c ((s.vd.get c).fault c (s.faultRecord c kind measured))).driverLeft c (s.vd.get c).state).tellFaulted c
    (s.vd.get c).state

section TookFault

variable (s : State) (c : Corner) (kind : FaultKind) (measured : Nat)

theorem State.enterFaulted_eq : s.enterFaulted c kind measured = (s.tookFault c kind measured).escalate := rfl

theorem State.tookFault_vd :
    (s.tookFault c kind measured).vd = s.vd.set c ((s.vd.get c).fault c (s.faultRecord c kind measured)) := by
  simp [State.tookFault]

theorem State.tookFault_mdc :
    (s.tookFault c kind measured).mdc =
      { s.mdc with
        faultedCount := s.mdc.faultedCount + 1
        checkEnds :=
          if (s.vd.get c).state = .checking ∧ s.mdc.mode = .starting then s.mdc.checkEnds.set c (some .faulted)
          else s.mdc.checkEnds } := by
  rw [State.tookFault, State.tellFaulted_mdc]
  simp

theorem State.tookFault_frame :
    (s.tookFault c kind measured).pvs = s.pvs ∧ (s.tookFault c kind measured).tod = s.tod := by
  simp [State.tookFault]

theorem State.tookFault_cc :
    ∃ followed switchReference switchPosition, (s.tookFault c kind measured).cc = s.cc.set c
      { s.cc.get c with followed, switchReference, switchPosition } := by
  simp only [State.tookFault, State.tellFaulted_frame]
  exact State.driverLeft_cc _ _ _

variable {s c}

theorem State.tookFault_switched (h : s.switchesOnLeaving c (s.vd.get c).state) :
    s.hasSwitched (s.tookFault c kind measured) c := by
  obtain ⟨_, _, p, pending, _⟩ := id h
  have released : (s.setVd c ((s.vd.get c).fault c (s.faultRecord c kind measured))).cfs.pendingProfile = some p :=
    pending
  rw [State.tookFault, State.driverLeft_switches (by exact h)]
  exact State.hasSwitched_congr (State.switchCorner_spec released).1 rfl rfl (fun _ _ => rfl) (by simp) fun e => by simp

theorem State.tookFault_kept (h : ¬s.switchesOnLeaving c (s.vd.get c).state) :
    s.keepsProfile (s.tookFault c kind measured) c := by
  rw [State.tookFault, State.driverLeft_keeps (by exact h)]
  exact State.keepsProfile_of_cc (by simp) (by simp)

end TookFault

/-- The driver after an entry to FAULTED: its items are those of `Vd.fault`, but for the quiet copy. -/
theorem State.enterFaulted_vd (s : State) (c : Corner) (kind : FaultKind) (measured : Nat) :
    ∃ quiet, (s.enterFaulted c kind measured).vd.get c =
      { (s.vd.get c).fault c (s.faultRecord c kind measured) with quiet } := by
  have taken : (s.tookFault c kind measured).vd.get c = (s.vd.get c).fault c (s.faultRecord c kind measured) := by
    rw [State.tookFault_vd, PerCorner.get_set_same]
  rw [State.enterFaulted_eq, ← taken]
  exact State.escalate_vd (by rw [taken]; rfl)

/-- The first fault in RUN has no answer. -/
theorem State.enterFaulted_firstInRun {s : State} {c : Corner} {kind : FaultKind} {measured : Nat}
    (run : s.mdc.mode = .run) (zero : s.mdc.faultedCount = 0) :
    s.enterFaulted c kind measured = s.tookFault c kind measured := by
  have mdc := s.tookFault_mdc c kind measured
  rw [State.enterFaulted_eq, State.escalate_first (by simp [mdc, zero]),
    State.runIfChecked_notStarting (by simp [mdc, run])]

/-- The second fault enters SAFE. -/
theorem State.enterFaulted_second {s : State} {c : Corner} {kind : FaultKind} {measured : Nat}
    (one : s.mdc.faultedCount = 1) :
    s.enterFaulted c kind measured = (s.tookFault c kind measured).enterSafe := by
  have two : (s.tookFault c kind measured).mdc.faultedCount = 2 := by rw [State.tookFault_mdc, one]
  rw [State.enterFaulted_eq, State.escalate_second (Nat.le_of_eq two.symm)]

/-- Between a fault taken and the Mode Controller's answer to it no corner switches. -/
theorem State.keepsProfile_answer {s : State} (c : Corner) (kind : FaultKind) (measured : Nat)
    (idle : s.mdc.mode = .starting → s.cfs.pendingProfile = none) (e : Corner) :
    (s.tookFault c kind measured).keepsProfile (s.enterFaulted c kind measured) e := by
  refine State.keepsProfile_escalate (fun starting => ?_) e
  have starting : s.mdc.mode = .starting := by rwa [State.tookFault_mdc] at starting
  have kept : s.keepsProfile (s.tookFault c kind measured) c := State.tookFault_kept _ _ fun ⟨run, _⟩ => by
    simp [starting] at run
  rw [kept.2.2.2]
  exact idle starting

section Switch

variable {s : State} {c : Corner} (kind : FaultKind) (measured : Nat)

theorem State.enterFaulted_switched (h : s.switchesOnLeaving c (s.vd.get c).state) :
    s.hasSwitched (s.enterFaulted c kind measured) c := by
  obtain ⟨run, _⟩ := id h
  have answer := State.keepsProfile_answer (s := s) c kind measured fun starting => by
    rw [run] at starting
    cases starting
  refine State.hasSwitched_congr (State.tookFault_switched kind measured h) rfl rfl (fun _ _ => rfl) (answer c).2.2.2
    fun e => ?_
  obtain ⟨followed, reference, position, _⟩ := answer e
  exact ⟨followed, reference, position⟩

theorem State.enterFaulted_kept (h : ¬s.switchesOnLeaving c (s.vd.get c).state) (agrees : s.pendingAgrees) :
    s.keepsProfile (s.enterFaulted c kind measured) c := by
  refine State.keepsProfile_trans (State.tookFault_kept kind measured h)
    (State.keepsProfile_answer c kind measured (fun starting => ?_) c)
  rw [State.pendingAgrees, starting] at agrees
  simpa using agrees

end Switch

/-- Settles O54: the fault taken, and then the answer: none to the first fault in RUN, SAFE to the second. -/
theorem faultIsContainedAndTheSecondEntersSafe : Obligations.FaultIsContainedAndTheSecondEntersSafe := by
  intro s c kind measured v t record w switches
  obtain ⟨quiet, driver⟩ := s.enterFaulted_vd c kind measured
  obtain ⟨followed, reference, position, cc⟩ := s.tookFault_cc c kind measured
  obtain ⟨pvs, _⟩ := s.tookFault_frame c kind measured
  have vd := s.tookFault_vd c kind measured
  have mdc := s.tookFault_mdc c kind measured
  refine ⟨?_, by simp [t], by simp [t], by simp [t], by simp [t], fun run zero => ?_,
    State.enterFaulted_switched kind measured, State.enterFaulted_kept kind measured, fun one => ?_⟩
  · simp only [w, t, driver, Vd.fault, Vd.nextRetry_eq]
    rfl
  · have first : t = s.tookFault c kind measured := State.enterFaulted_firstInRun run zero
    rw [← first] at vd cc mdc pvs
    have faulted : w = v.fault c record := (congrArg (PerCorner.get · c) vd).trans (PerCorner.get_set_same _ _ _)
    exact ⟨by simp [mdc, zero, run], pvs, (congrArg Vd.quiet faulted :), by simp [cc],
      fun e other => by simp [vd, cc, other]⟩
  · have second : t = (s.tookFault c kind measured).enterSafe := State.enterFaulted_second one
    have faulted : w = (v.fault c record).atSafe := by
      simp only [w, second, State.enterSafe_vd, PerCorner.get_of, vd, PerCorner.get_set_same, v, record,
        State.faultRecord]
    have corners (e : Corner) :
        t.cc.get e = { (s.tookFault c kind measured).cc.get e with previousHeight := none } := by
      rw [second, State.enterSafe_cc, PerCorner.get_of]
    refine ⟨?_, ?_, congrArg Vd.quiet faulted, by simp [corners, cc], fun e other => by simp [corners, cc, other],
      fun e other => ?_⟩
    · rw [second, State.enterSafe_pvs, pvs]
      rfl
    · rw [second, State.enterSafe_mdc, mdc, one]
      rfl
    · rw [second, State.enterSafe_vd, PerCorner.get_of, vd, PerCorner.get_set_ne other]
      rfl

end Sys2Proof.Machine
end

section
/-! The profile selection as every command leaves it (chapter 04): it stays consistent, and outside RUN and SAFE, where
no driver is in DRIVE, TRIM or HOLD, no switch is pending. -/

namespace Sys2Proof.Machine

/-! ## What is kept -/

/-- Outside RUN and SAFE no switch is pending, and no driver is in DRIVE, TRIM or HOLD: a switch that begins there
completes at once (R82), and no driver comes to be in those states. -/
def State.calmOutsideRun (s : State) : Prop :=
  s.mdc.mode ≠ .run → s.mdc.mode ≠ .safe →
    s.cfs.pendingProfile = none ∧ ∀ c, (s.vd.get c).state.takesDemand = false

/-- DRIVE, TRIM and HOLD are states of RUN alone. -/
theorem DriverState.still_of_admitted {m : PartMode} {d : DriverState} (notRun : m ≠ .run) (h : m.admits d = true) :
    d.takesDemand = false := by
  cases d with
  | off | checking | armed | released | faulted => rfl
  | drive | trim | hold =>
    cases m with
    | run => exact absurd rfl notRun
    | config | starting | safe | standby => exact absurd h (by decide)

theorem State.calmOutsideRun_of_agrees {s : State} (modes : s.modesAgree) (pending : s.pendingAgrees) :
    s.calmOutsideRun := by
  intro notRun notSafe
  obtain ⟨admits, _⟩ := modes
  exact ⟨Decidable.byContradiction fun n => (pending n).elim notRun notSafe,
    fun c => DriverState.still_of_admitted notRun (admits c)⟩

theorem State.pendingAgrees_of_calm {s : State} (calm : s.calmOutsideRun) : s.pendingAgrees := by
  refine fun pending => Decidable.byContradiction fun outside => ?_
  obtain ⟨notRun, notSafe⟩ := not_or.1 outside
  exact pending (calm notRun notSafe).1

/-- What a command brings about between `s` and `t` keeps the selection consistent, and the calm outside RUN and
SAFE. -/
def State.selectionStays (s t : State) : Prop :=
  (s.selectionAgrees → t.selectionAgrees) ∧ (s.calmOutsideRun → t.calmOutsideRun)

section Stays

variable {s t u : State} {c : Corner}

theorem State.selectionStays.refl (s : State) : s.selectionStays s := ⟨id, id⟩

theorem State.selectionStays.trans (h : s.selectionStays t) (k : t.selectionStays u) : s.selectionStays u :=
  ⟨k.1 ∘ h.1, k.2 ∘ h.2⟩

theorem State.selectionAgrees_of_same (h : s.selectionAgrees) (pending : t.cfs.pendingProfile = s.cfs.pendingProfile)
    (active : t.cfs.active = s.cfs.active) (followed : ∀ c, (t.cc.get c).followed = (s.cc.get c).followed) :
    t.selectionAgrees := by
  simpa only [State.selectionAgrees, pending, active, followed] using h

theorem State.selectionAgrees_of_blocks (h : s.selectionAgrees) (cfs : t.cfs = s.cfs) (cc : t.cc = s.cc) :
    t.selectionAgrees :=
  State.selectionAgrees_of_same h (by rw [cfs]) (by rw [cfs]) fun _ => by rw [cc]

theorem State.selectionAgrees_of_complete (idle : t.cfs.pendingProfile = none)
    (all : ∀ c, (t.cc.get c).followed = t.cfs.active) : t.selectionAgrees := by
  simpa only [State.selectionAgrees, idle] using all

/-- Kept where mode and selection stay, and no driver comes to be in DRIVE, TRIM or HOLD. -/
theorem State.selectionStays_of_frame (mode : t.mdc.mode = s.mdc.mode)
    (pending : t.cfs.pendingProfile = s.cfs.pendingProfile) (active : t.cfs.active = s.cfs.active)
    (followed : ∀ c, (t.cc.get c).followed = (s.cc.get c).followed)
    (still : ∀ c, (s.vd.get c).state.takesDemand = false → (t.vd.get c).state.takesDemand = false) :
    s.selectionStays t := by
  refine ⟨fun h => State.selectionAgrees_of_same h pending active followed, fun calm notRun notSafe => ?_⟩
  rw [mode] at notRun notSafe
  obtain ⟨idle, drivers⟩ := calm notRun notSafe
  exact ⟨pending.trans idle, fun c => still c (drivers c)⟩

/-- Kept where mode, CFS, corners and drivers stay. -/
theorem State.selectionStays_of_blocks (mode : t.mdc.mode = s.mdc.mode) (cfs : t.cfs = s.cfs) (cc : t.cc = s.cc)
    (vd : t.vd = s.vd) : s.selectionStays t :=
  State.selectionStays_of_frame mode (by rw [cfs]) (by rw [cfs]) (fun _ => by rw [cc]) fun _ h => by rwa [vd]

/-- In RUN and SAFE only the selection is to be shown. -/
theorem State.selectionStays_of_active (mode : t.mdc.mode = .run ∨ t.mdc.mode = .safe)
    (selection : s.selectionAgrees → t.selectionAgrees) : s.selectionStays t :=
  ⟨selection, fun _ notRun notSafe => absurd mode (not_or.2 ⟨notRun, notSafe⟩)⟩

/-- Where a driver is in DRIVE, TRIM or HOLD and the mode stays, only the selection is to be shown. -/
theorem State.selectionStays_of_driven (driven : (s.vd.get c).state.takesDemand = true) (mode : t.mdc.mode = s.mdc.mode)
    (selection : s.selectionAgrees → t.selectionAgrees) : s.selectionStays t := by
  refine ⟨selection, fun calm notRun notSafe => ?_⟩
  rw [mode] at notRun notSafe
  have still := (calm notRun notSafe).2 c
  rw [driven] at still
  cases still

theorem State.selectionStays_setVd {v : Vd}
    (still : (s.vd.get c).state.takesDemand = false → v.state.takesDemand = false) :
    s.selectionStays (s.setVd c v) := by
  refine State.selectionStays_of_frame rfl rfl rfl (fun _ => rfl) fun d h => ?_
  by_cases same : d = c
  · subst same
    simpa using still h
  · simpa [same] using h

theorem State.selectionStays_setCc {x : Cc} (followed : x.followed = (s.cc.get c).followed) :
    s.selectionStays (s.setCc c x) := by
  refine State.selectionStays_of_frame rfl rfl rfl (fun d => ?_) fun _ => id
  by_cases same : d = c
  · subst same
    simpa using followed
  · simp [same]

end Stays

/-! ## The switch (R82 to R86) -/

/-- A switch to another profile, complete or still to be completed, is consistent. -/
theorem State.selectionAgrees_completeSwitch {s : State} {p : ProfileName} (pending : s.cfs.pendingProfile = some p)
    (other : p ≠ s.cfs.active) : s.completeSwitch.selectionAgrees := by
  by_cases all : ∀ c, (s.cc.get c).followed = p
  · rw [State.completeSwitch_last pending all]
    exact State.selectionAgrees_of_complete rfl all
  · obtain ⟨c, n⟩ := Classical.not_forall.1 all
    rw [State.completeSwitch_notLast pending ⟨c, n⟩]
    simpa only [State.selectionAgrees, pending] using ⟨other, c, n⟩

theorem State.ne_active_of_pending {s : State} {p : ProfileName} (h : s.selectionAgrees)
    (pending : s.cfs.pendingProfile = some p) : p ≠ s.cfs.active := by
  rw [State.selectionAgrees, pending] at h
  exact h.1

theorem State.selectionAgrees_switchCorner {s : State} {p : ProfileName} (h : s.selectionAgrees)
    (pending : s.cfs.pendingProfile = some p) (c : Corner) : (s.switchCorner c).selectionAgrees :=
  State.selectionAgrees_completeSwitch (p := p) (by simpa using pending)
    (by simpa using State.ne_active_of_pending h pending)

theorem State.selectionAgrees_boundaryTest {s : State} (h : s.selectionAgrees) (c : Corner) :
    (s.boundaryTest c).selectionAgrees := by
  by_cases switches : s.switchesAtTest c
  · obtain ⟨_, ⟨p, pending, _⟩, _⟩ := id switches
    rw [State.boundaryTest_switches switches]
    exact State.selectionAgrees_switchCorner h pending c
  · rwa [State.boundaryTest_keeps switches]

theorem State.selectionAgrees_beginSwitch {s : State} {p : ProfileName} (other : p ≠ s.cfs.active) :
    (s.beginSwitch p).selectionAgrees := by
  rw [State.beginSwitch_eq]
  exact State.selectionAgrees_completeSwitch rfl other

theorem DriverState.drivesOrTrims_of_still {d : DriverState} (h : d.takesDemand = false) : d.drivesOrTrims = false := by
  cases d with
  | drive | trim => cases h
  | off | checking | armed | hold | released | faulted => rfl

theorem State.selectionStays_acceptSwitch {s : State} {p : ProfileName} (other : p ≠ s.cfs.active) :
    s.selectionStays (s.acceptSwitch p) := by
  cases mode : s.mdc.mode with
  | safe => simpa [State.acceptSwitch, mode] using State.selectionStays.refl s
  | config | standby =>
    rw [State.acceptSwitch_immediate (by simp [mode])]
    refine ⟨fun _ => State.selectionAgrees_of_complete rfl fun c => by simp [State.immediateSwitch],
      fun calm _ _ => ?_⟩
    have still := (calm (by simp [mode]) (by simp [mode])).2
    exact ⟨rfl, still⟩
  | starting =>
    rw [State.acceptSwitch_begins (.inl mode)]
    refine ⟨fun _ => State.selectionAgrees_beginSwitch other, fun calm _ _ => ?_⟩
    have still := (calm (by simp [mode]) (by simp [mode])).2
    rw [State.beginSwitch_completes fun c => DriverState.drivesOrTrims_of_still (still c)]
    exact ⟨rfl, still⟩
  | run =>
    rw [State.acceptSwitch_begins (.inr mode)]
    exact State.selectionStays_of_active (.inl (by simpa using mode)) fun _ => State.selectionAgrees_beginSwitch other

/-- What a corner becomes as entry to STANDBY ends a switch (R86). -/
def State.overtaken (s : State) (p : ProfileName) (c : Corner) : Cc :=
  if (s.cc.get c).followed = p then s.cc.get c
  else { s.cc.get c with followed := p, switchReference := .notSet, switchPosition := some (s.cornerPosition c) }

theorem State.overtaken_followed (s : State) (p : ProfileName) (c : Corner) : (s.overtaken p c).followed = p := by
  unfold State.overtaken
  split
  · assumption
  · rfl

theorem State.switchAtStandby_idle {s : State} (idle : s.cfs.pendingProfile = none) : s.switchAtStandby = s := by
  simp [State.switchAtStandby, corners, State.hasSwitch, idle, State.completeSwitch_none]

/-- The state in which entry to STANDBY has every corner on the pending profile, before the switch completes. -/
def State.allOvertaken (s : State) (p : ProfileName) : State := { s with cc := PerCorner.of (s.overtaken p) }

theorem State.switchAtStandby_eq {s : State} {p : ProfileName} (pending : s.cfs.pendingProfile = some p) :
    s.switchAtStandby = (s.allOvertaken p).completeSwitch := by
  rw [State.switchAtStandby, foldl_corners_cc (g := s.overtaken p) fun m c same => ?_]
  · rfl
  · simp only [State.hasSwitch, State.takePending, State.setCc, pending, same, State.overtaken, bne_iff_ne, ne_eq,
      ite_not]
    split
    · rw [← same, PerCorner.set_get]
    · rfl

/-- Entry to STANDBY leaves no switch pending (R86). -/
theorem State.switchAtStandby_pending (s : State) : s.switchAtStandby.cfs.pendingProfile = none := by
  cases pending : s.cfs.pendingProfile with
  | none => rw [State.switchAtStandby_idle pending, pending]
  | some p =>
    have all (c : Corner) : ((s.allOvertaken p).cc.get c).followed = p := by
      rw [State.allOvertaken, PerCorner.get_of, State.overtaken_followed]
    rw [State.switchAtStandby_eq pending, State.completeSwitch_last (s := s.allOvertaken p) pending all]
    rfl

theorem State.selectionAgrees_switchAtStandby {s : State} (h : s.selectionAgrees) :
    s.switchAtStandby.selectionAgrees := by
  cases pending : s.cfs.pendingProfile with
  | none => rwa [State.switchAtStandby_idle pending]
  | some p =>
    have other : p ≠ s.cfs.active := State.ne_active_of_pending h pending
    rw [State.switchAtStandby_eq pending]
    exact State.selectionAgrees_completeSwitch (s := s.allOvertaken p) pending other

/-! ## The drivers -/

theorem State.selectionAgrees_driverLeft {s : State} (h : s.selectionAgrees) (c : Corner) (former : DriverState) :
    (s.driverLeft c former).selectionAgrees := by
  by_cases switches : s.switchesOnLeaving c former
  · obtain ⟨_, _, p, pending, _⟩ := id switches
    rw [State.driverLeft_switches switches]
    exact State.selectionAgrees_switchCorner h pending c
  · rwa [State.driverLeft_keeps switches]

theorem State.selectionStays_driverLeft (s : State) (c : Corner) (former : DriverState) :
    s.selectionStays (s.driverLeft c former) := by
  by_cases switches : s.switchesOnLeaving c former
  · exact State.selectionStays_of_active (.inl (by simpa using switches.1))
      fun h => State.selectionAgrees_driverLeft h c former
  · rw [State.driverLeft_keeps switches]
    exact State.selectionStays.refl s

theorem State.selectionAgrees_enterHold {s : State} (h : s.selectionAgrees) (c : Corner) :
    (s.enterHold c).selectionAgrees :=
  State.selectionAgrees_driverLeft (s := s.setVd c _) (State.selectionAgrees_of_blocks h rfl rfl) c _

theorem State.selectionAgrees_enterDriveAtFloor {s : State} (h : s.selectionAgrees) (c : Corner) :
    (s.enterDriveAtFloor c).selectionAgrees := by
  have kept (d : Corner) := State.keepsProfile_enterDriveAtFloor s d c
  obtain ⟨_, _, _, cfs⟩ := kept c
  exact State.selectionAgrees_of_same h (by rw [cfs]) (by rw [cfs]) fun d => (kept d).1

theorem State.selectionAgrees_armedToRun {s : State} (h : s.selectionAgrees) (c : Corner) :
    (s.armedToRun c).selectionAgrees := by
  have entered : ((s.startTrimSchedule c).enterDriveAtFloor c).selectionAgrees :=
    State.selectionAgrees_enterDriveAtFloor (State.selectionAgrees_of_blocks h (by simp) (by simp)) c
  simp only [State.armedToRun]
  split
  · split
    · exact State.selectionAgrees_enterHold entered c
    · exact entered
  · exact h

theorem State.selectionAgrees_foldl_armedToRun {s : State} (h : s.selectionAgrees) (l : List Corner) :
    (l.foldl State.armedToRun s).selectionAgrees := by
  induction l generalizing s with
  | nil => exact h
  | cons c l ih => exact ih (State.selectionAgrees_armedToRun h c)

theorem State.driveStartTest_still {s : State} {c : Corner} (still : (s.vd.get c).state.takesDemand = false) :
    s.driveStartTest c = s := by
  have notDrive : (s.vd.get c).state ≠ .drive := fun drive => by simp [drive, DriverState.takesDemand] at still
  simp [State.driveStartTest, notDrive]

theorem State.expiryStartTest_still {s : State} {c : Corner} (still : (s.vd.get c).state.takesDemand = false) :
    s.expiryStartTest c = s := by
  unfold State.expiryStartTest State.startTest
  cases state : (s.vd.get c).state with
  | drive | trim | hold => simp [state, DriverState.takesDemand] at still
  | off | checking | armed | released | faulted => simp

/-! ## The changes of mode -/

theorem State.selectionStays_enterSafe (s : State) : s.selectionStays s.enterSafe :=
  State.selectionStays_of_active (.inr (by simp)) fun h =>
    State.selectionAgrees_of_same h (by simp) (by simp) fun c => by simp

theorem State.selectionStays_enterRun (s : State) : s.selectionStays s.enterRun := by
  refine State.selectionStays_of_active (.inl (by simp)) fun h => ?_
  have ordered : ((((s.setMdc { s.mdc with mode := .run }).setPvs { s.pvs with preview := .active }).mapCc
      fun _ x => x.atRun).mapVd fun _ v => v.atRun).selectionAgrees :=
    State.selectionAgrees_of_same h rfl rfl fun c => by simp [Cc.atRun]
  exact State.selectionAgrees_of_blocks (State.selectionAgrees_foldl_armedToRun ordered corners)
    (by simp [State.enterRun]) (by simp [State.enterRun])

theorem State.selectionStays_runIfChecked (s : State) : s.selectionStays s.runIfChecked := by
  unfold State.runIfChecked
  split
  · exact s.selectionStays_enterRun
  · exact State.selectionStays.refl s

theorem State.selectionStays_tellFaulted (s : State) (c : Corner) (former : DriverState) :
    s.selectionStays (s.tellFaulted c former) :=
  State.selectionStays_of_blocks (by simp) (by simp) (by simp) (by simp)

theorem State.selectionStays_enterFaulted (s : State) (c : Corner) (kind : FaultKind) (measured : Nat) :
    s.selectionStays (s.enterFaulted c kind measured) := by
  have released : s.selectionStays (s.setVd c ((s.vd.get c).fault c (s.faultRecord c kind measured))) :=
    State.selectionStays_setVd fun _ => rfl
  have taken : s.selectionStays (s.tookFault c kind measured) :=
    (released.trans (State.selectionStays_driverLeft _ c _)).trans (State.selectionStays_tellFaulted _ c _)
  rw [State.enterFaulted_eq]
  refine taken.trans ?_
  unfold State.escalate
  split
  · exact State.selectionStays_enterSafe _
  · exact State.selectionStays_runIfChecked _

theorem Vd.atStarting_still {v : Vd} (still : v.state.takesDemand = false) :
    v.atStarting.state.takesDemand = false := by
  unfold Vd.atStarting
  split
  · rfl
  · exact still

theorem State.startFinding_ok_mode {s : State} (h : s.startFinding = .ok) :
    s.mdc.mode = .config ∨ s.mdc.mode = .standby := by
  refine Decidable.byContradiction fun other => ?_
  rw [State.startFinding, if_pos (not_or.1 other)] at h
  cases h

theorem State.selectionStays_enterStarting {s : State} (mode : s.mdc.mode = .config ∨ s.mdc.mode = .standby) :
    s.selectionStays s.enterStarting := by
  refine ⟨fun h => State.selectionAgrees_of_same h (by simp) (by simp) fun c => by simp [State.enterStarting],
    fun calm _ _ => ?_⟩
  obtain ⟨idle, still⟩ := calm (by rcases mode with m | m <;> simp [m]) (by rcases mode with m | m <;> simp [m])
  exact ⟨by simpa using idle, fun c => by simpa [State.enterStarting] using Vd.atStarting_still (still c)⟩

theorem State.selectionStays_enterStandby (s : State) : s.selectionStays s.enterStandby := by
  refine ⟨fun h => State.selectionAgrees_of_same (State.selectionAgrees_switchAtStandby h) ?_ ?_ fun c => ?_,
    fun _ _ _ => ⟨?_, fun c => ?_⟩⟩
  · simp [State.enterStandby]
  · simp [State.enterStandby]
  · simp [State.enterStandby]
  · simpa [State.enterStandby] using s.switchAtStandby_pending
  · simp [State.enterStandby, Vd.atStandby, Vd.atRest, DriverState.takesDemand]

theorem State.selectionStays_reset (s : State) {t : State} (idle : t.cfs.pendingProfile = none)
    (active : t.cfs.active = .a) (cc : t.cc = PerCorner.of fun _ => Cc.reset) (off : ∀ c, (t.vd.get c).state = .off) :
    s.selectionStays t :=
  ⟨fun _ => State.selectionAgrees_of_complete idle fun c => by rw [cc, active, PerCorner.get_of]; rfl,
    fun _ _ _ => ⟨idle, fun c => by rw [off]; rfl⟩⟩

/-! ## The events -/

theorem State.takeFrontPulse_followed (s : State) (t : Track) (time : Nat) (c : Corner) :
    ((s.takeFrontPulse t time).cc.get c).followed = (s.cc.get c).followed := by
  have miss (u : State) (d : Corner) (given : Bool) :
      ((u.giveMiss d given).cc.get c).followed = (u.cc.get c).followed := by
    unfold State.giveMiss
    split
    · by_cases same : c = d
      · subst same
        simp
      · simp [same]
    · rfl
  by_cases ahead : (s.tod.get t).direction = .forward
  · rw [State.takeFrontPulse_forward ahead]
    simp [State.handAdvance, miss]
  · rw [State.takeFrontPulse_away ahead]
    rfl

theorem State.selectionAgrees_updateInRun {s : State} (h : s.selectionAgrees) (c : Corner) (raw : Int) :
    (s.updateInRun c raw).selectionAgrees := by
  obtain ⟨cfs, selection⟩ := s.updateInRun_selection c raw
  have taken : (s.noticeTaken c).selectionAgrees := (State.selectionStays_setCc (by rfl)).1 h
  exact State.selectionAgrees_of_same (State.selectionAgrees_boundaryTest taken c) (by rw [cfs]; rfl) (by rw [cfs]; rfl)
    fun e => (selection e).1

theorem State.selectionStays_tellQuiet (s : State) (c : Corner) (quiet : Bool) :
    s.selectionStays (s.tellQuiet c quiet) := by
  cases still : (s.vd.get c).state.takesDemand with
  | true => exact State.selectionStays_of_driven still (by simp) fun h =>
      State.selectionAgrees_of_blocks h (by simp) (by simp)
  | false =>
    rw [State.tellQuiet, State.driveStartTest_still (by simpa using still)]
    exact State.selectionStays_setVd id

theorem State.selectionStays_bookkeep (s : State) (c : Corner) (u : UpdateSet) (trace : UpdateTrace) :
    s.selectionStays (s.bookkeep c u trace) := State.selectionStays_setCc (by rfl)

theorem State.selectionStays_updateOutsideRun (s : State) (c : Corner) : s.selectionStays (s.updateOutsideRun c) := by
  have taken : s.selectionStays (s.setCc c { s.cc.get c with missNotice := false, previousHeight := none }) :=
    State.selectionStays_setCc rfl
  exact (taken.trans (State.selectionStays_tellQuiet _ c true)).trans (State.selectionStays_bookkeep _ c _ _)

theorem State.selectionStays_sample (s : State) (c : Corner) (n : Nat) : s.selectionStays (s.sample c n) := by
  have measured : s.selectionStays (s.setVd c { s.vd.get c with measured := currentReading n }) :=
    State.selectionStays_setVd id
  simp only [State.sample]
  split
  · exact measured.trans (State.selectionStays_enterFaulted _ c _ _)
  · split
    · refine measured.trans (State.selectionStays_setVd ?_)
      exact id
    · exact measured

theorem State.selectionStays_trackingExpires (s : State) (c : Corner) : s.selectionStays (s.trackingExpires c) := by
  simp only [State.trackingExpires]
  split
  · exact s.selectionStays_enterFaulted c _ _
  · exact State.selectionStays.refl s

theorem State.selectionAgrees_startTest {s : State} (h : s.selectionAgrees) (c : Corner) :
    (s.startTest c).selectionAgrees := State.selectionAgrees_of_blocks h (by simp) (by simp)

theorem State.selectionAgrees_rechecked {s : State} (h : s.selectionAgrees) (c : Corner) :
    (s.rechecked c).selectionAgrees := by
  have scheduled : (s.startTrimSchedule c).selectionAgrees := State.selectionAgrees_of_blocks h (by simp) (by simp)
  refine State.selectionAgrees_startTest ?_ c
  split
  · exact State.selectionAgrees_enterHold scheduled c
  · exact State.selectionAgrees_enterDriveAtFloor scheduled c

theorem State.selectionStays_armed (s : State) (c : Corner) : s.selectionStays (s.armed c) := by
  have rested : s.selectionStays (s.setVd c ((s.vd.get c).atRest .armed)) := State.selectionStays_setVd fun _ => rfl
  exact (rested.trans (State.selectionStays_of_blocks (by simp) (by simp) (by simp) (by simp))).trans
    (State.selectionStays_runIfChecked _)

theorem State.selectionStays_checkPassed (s : State) (c : Corner) (resistance : Nat) :
    s.selectionStays (s.checkPassed c resistance) := by
  have estimated : s.selectionStays (s.setEstimates c resistance) := State.selectionStays_setVd id
  cases mode : s.mdc.mode with
  | starting =>
    rw [State.checkPassed, mode]
    exact estimated.trans (State.selectionStays_armed _ c)
  | run =>
    rw [State.checkPassed, mode]
    exact State.selectionStays_of_active (.inl (by simpa using mode)) fun h =>
      State.selectionAgrees_rechecked (estimated.1 h) c
  | config | safe | standby =>
    rw [State.checkPassed, mode]
    exact State.selectionStays.refl s

theorem State.selectionStays_checkCompletes (s : State) (c : Corner) (resistance : Nat) :
    s.selectionStays (s.checkCompletes c resistance) := by
  unfold State.checkCompletes
  split
  · exact s.selectionStays_enterFaulted c _ _
  · exact s.selectionStays_enterFaulted c _ _
  · exact s.selectionStays_checkPassed c resistance

theorem State.selectionAgrees_leaveTrim {s : State} (h : s.selectionAgrees) (c : Corner) (origin : TrimOrigin) :
    (s.leaveTrim c origin).selectionAgrees := by
  cases origin with
  | drive =>
    simp only [State.leaveTrim]
    split
    · exact State.selectionAgrees_enterHold h c
    · exact State.selectionAgrees_of_blocks h (by simp) (by simp)
  | hold =>
    simp only [State.leaveTrim]
    split
    · exact State.selectionAgrees_enterHold h c
    · exact State.selectionAgrees_enterDriveAtFloor h c

theorem State.selectionAgrees_trimPassed {s : State} (h : s.selectionAgrees) (c : Corner) (t : Trim)
    (resistance : Nat) :
    (s.trimPassed c t resistance).selectionAgrees := by
  have measured : ((s.setEstimates c resistance).setVd c
      (((s.setEstimates c resistance).vd.get c).trimmed t.kind)).selectionAgrees :=
    State.selectionAgrees_of_blocks h (by simp) (by simp)
  exact State.selectionAgrees_startTest (State.selectionAgrees_leaveTrim measured c t.origin) c

theorem State.selectionStays_trimCompletes {s : State} {c : Corner} (trims : (s.vd.get c).state = .trim) (t : Trim)
    (resistance : Nat) : s.selectionStays (s.trimCompletes c t resistance) := by
  unfold State.trimCompletes
  split
  · exact s.selectionStays_enterFaulted c _ _
  · exact s.selectionStays_enterFaulted c _ _
  · exact State.selectionStays_of_driven (c := c) (by rw [trims]; rfl) (by simp) fun h =>
      State.selectionAgrees_trimPassed h c t resistance

theorem State.selectionStays_trimTimerExpires (s : State) (c : Corner) : s.selectionStays (s.trimTimerExpires c) := by
  cases still : (s.vd.get c).state.takesDemand with
  | true => exact State.selectionStays_of_driven still (by simp) fun h =>
      State.selectionAgrees_of_blocks h (by simp) (by simp)
  | false =>
    simp only [State.trimTimerExpires]
    rw [State.expiryStartTest_still (by simpa using still)]
    exact State.selectionStays_setVd id

theorem State.selectionStays_emptyMarker (s : State) (m : Marker) : s.selectionStays (s.emptyMarker m) := by
  cases m with
  | fault c => exact State.selectionStays_setVd id
  | mode => exact State.selectionStays_of_blocks rfl rfl rfl rfl
  | lock t => exact State.selectionStays_of_blocks rfl rfl rfl rfl
  | profile => exact State.selectionStays_of_frame rfl rfl rfl (fun _ => rfl) fun _ => id
  | condition c b => exact State.selectionStays_setCc (by rfl)
  | passage =>
    simp only [State.emptyMarker]
    split
    · exact State.selectionStays.refl s
    · exact State.selectionStays_of_blocks rfl rfl rfl rfl

/-- The contents of a group bear on no item of the selection (R177). -/
theorem Cfs.store_selection (f : Cfs) (g : GroupId) (contents : GroupContents) :
    (f.store g contents).pendingProfile = f.pendingProfile ∧ (f.store g contents).active = f.active := by
  unfold Cfs.store
  split <;> exact ⟨rfl, rfl⟩

/-- What is between the state before a command and any state on its way is kept by each change that a command makes. -/
theorem State.selectionStays_keeps (s : State) : Keeps s.selectionStays where
  outer _ _ _ _ h := h.trans (State.selectionStays_of_blocks rfl rfl rfl rfl)
  resumes _ h _ _ := h.trans (State.selectionStays_of_blocks rfl rfl rfl rfl)
  setGroup _ _ _ u g contents h _ _ _ := by
    obtain ⟨pending, active⟩ := u.cfs.store_selection g contents
    exact h.trans (State.selectionStays_of_frame rfl pending active (fun _ => rfl) fun _ => id)
  setLocks _ _ _ _ h := h.trans (State.selectionStays_of_frame rfl rfl rfl (fun _ => rfl) fun _ => id)
  writeVariant _ _ _ _ h _ := h.trans (State.selectionStays_of_frame rfl rfl rfl (fun _ => rfl) fun _ => id)
  start _ _ h ok := h.trans (State.selectionStays_enterStarting (State.startFinding_ok_mode ok))
  standby _ u h _ := h.trans u.selectionStays_enterStandby
  restart _ u h := h.trans (u.selectionStays_reset rfl rfl rfl fun c => by
    simp [State.applyRestart, Vd.atRestart, Vd.reset])
  motion _ _ u d t h := h.trans (State.selectionStays_of_blocks (by simp) (by simp) (by simp) (by simp))
  preview _ _ _ _ _ h _ := h.trans (State.selectionStays_of_blocks rfl rfl rfl rfl)
  withdraw _ _ _ _ h _ _ := h.trans (State.selectionStays_of_blocks rfl rfl rfl rfl)
  select _ _ _ _ h _ _ other := h.trans (State.selectionStays_acceptSwitch other)
  trimAhead _ _ _ _ _ h run _ := h.trans (State.selectionStays_of_active (.inl (by simpa using run)) fun agrees =>
    State.selectionAgrees_of_blocks agrees (by simp) (by simp))
  recheck _ _ _ _ h run _ := h.trans (State.selectionStays_of_active (.inl (by simpa using run)) fun agrees =>
    State.selectionAgrees_of_blocks agrees (by simp) (by simp))
  setReporting _ _ _ _ _ _ h := h.trans (State.selectionStays_setCc (by rfl))
  clear _ _ _ _ _ _ h := h.trans (State.selectionStays_setCc (by rfl))
  fullReset _ _ _ _ := s.selectionStays_reset rfl rfl rfl fun c => by cases c <;> rfl
  frontPulse t time _ u h _ := h.trans (State.selectionStays_of_frame (by simp) (by simp) (by simp)
    (u.takeFrontPulse_followed t time) fun c still => by simpa using still)
  rearPulse _ _ _ h _ := h.trans (State.selectionStays_of_blocks (by simp) (by simp) (by simp) (by simp))
  standstill _ _ _ h _ := h.trans (State.selectionStays_of_blocks rfl rfl rfl rfl)
  updateInRun c raw _ _ h run := h.trans (State.selectionStays_of_active (.inl (by simpa using run)) fun agrees =>
    State.selectionAgrees_updateInRun agrees c raw)
  updateOutsideRun c _ _ u h _ := h.trans (u.selectionStays_updateOutsideRun c)
  sample c n _ u h := h.trans (u.selectionStays_sample c n)
  trackingExpires c _ u h := h.trans (u.selectionStays_trackingExpires c)
  checkCompletes c r _ u h _ := h.trans (u.selectionStays_checkCompletes c r)
  trimCompletes _ r _ _ t h trims _ := h.trans (State.selectionStays_trimCompletes trims t r)
  trimTimerExpires c _ u h _ := h.trans (u.selectionStays_trimTimerExpires c)
  silence _ _ h _ _ := h.trans (State.selectionStays_of_blocks rfl rfl rfl rfl)
  emptyMarker _ u m h := h.trans (u.selectionStays_emptyMarker m)

/-- Settles O41: every step keeps the selection, and the calm outside RUN and SAFE; the calm follows before the step from
the agreement of drivers, mode and pending switch, and says after it where a switch may be pending. -/
theorem profileSelectionStaysConsistent : Obligations.ProfileSelectionStaysConsistent := by
  intro s t stepped
  obtain ⟨selection, calm⟩ := Keeps.step s.selectionStays_keeps (State.selectionStays.refl s) stepped
  exact ⟨selection, fun modes pending =>
    State.pendingAgrees_of_calm (calm (State.calmOutsideRun_of_agrees modes pending))⟩

end Sys2Proof.Machine
end

section
/-! The demand of an update (R99 to R105): the reactive demand, its join with the preview demand, the clamp and the rate
limit. -/

namespace Sys2Proof.Machine

/-! ## The reactive and the combined demand (R99, R101, R102) -/

theorem Profile.reactive_some (p : Profile) (v : Int) :
    p.reactive (some v) = min 1000 (p.floor + p.gain * v.natAbs / 100) := capDemand_eq _

theorem CombineMode.join_max (preview reactive : Nat) :
    CombineMode.max.join preview reactive = Max.max preview reactive := by
  simp only [CombineMode.join]
  split <;> omega

theorem CombineMode.join_min (preview reactive : Nat) :
    CombineMode.min.join preview reactive = Min.min preview reactive := by
  simp only [CombineMode.join]
  split <;> omega

section Combined

variable {p : Profile} {x : Slot}

theorem combinedDemand_override {o : Override} (held : x.segment.override = some o) (preview reactive : Nat) :
    combinedDemand p (some x) preview reactive = preview := by
  simp only [combinedDemand, held]

theorem combinedDemand_row (free : x.segment.override = none) (preview reactive : Nat) :
    combinedDemand p (some x) preview reactive = (p.rowFor x.segment).combine.join preview reactive := by
  simp only [combinedDemand, free]

/-- The preview demand stands alone with an override, and with a row that says REPLACE (R78, R102). -/
theorem combinedDemand_replaces (h : x.segment.override ≠ none ∨ (p.rowFor x.segment).combine = .replace)
    (preview reactive : Nat) : combinedDemand p (some x) preview reactive = preview := by
  cases override : x.segment.override with
  | some o => exact combinedDemand_override override preview reactive
  | none =>
    obtain held | replace := h
    · exact absurd override held
    · rw [combinedDemand_row override, replace]
      rfl

end Combined

/-! ## The clamp and the rate limit (R103, R104) -/

section Limits

variable {p : Profile} {reference target : Nat}

theorem Profile.clamp_between (ordered : p.floor ≤ p.ceiling) (d : Nat) :
    p.floor ≤ p.clamp d ∧ p.clamp d ≤ p.ceiling := by
  unfold Profile.clamp
  (repeat' split) <;> omega

theorem Profile.limitRate_up (far : reference + p.rateLimit < target) :
    p.limitRate reference target = reference + p.rateLimit := if_pos far

theorem Profile.limitRate_down (far : target + p.rateLimit < reference) :
    p.limitRate reference target = reference - p.rateLimit := by
  rw [Profile.limitRate, if_neg (by omega), if_pos far]

theorem Profile.limitRate_reached (up : target ≤ reference + p.rateLimit) (down : reference ≤ target + p.rateLimit) :
    p.limitRate reference target = target := by
  rw [Profile.limitRate, if_neg (Nat.not_lt.2 up), if_neg (Nat.not_lt.2 down)]

/-- A step from the reference towards the target does not leave an interval that holds both. -/
theorem Profile.limitRate_between {low high : Nat} (r : low ≤ reference ∧ reference ≤ high)
    (t : low ≤ target ∧ target ≤ high) :
    low ≤ p.limitRate reference target ∧ p.limitRate reference target ≤ high := by
  unfold Profile.limitRate
  (repeat' split) <;> omega

end Limits

/-- The demand of an update lies between the floor and the ceiling, as the reference and the target do. -/
theorem computeDemand_between {p : Profile} (ordered : p.floor ≤ p.ceiling) (r : Role) (position : Position)
    (velocity : Option Int) (effect : Option Slot) (last : Nat) :
    p.floor ≤ (computeDemand p r position velocity effect last).final
      ∧ (computeDemand p r position velocity effect last).final ≤ p.ceiling :=
  Profile.limitRate_between (Profile.clamp_between ordered last) (Profile.clamp_between ordered _)

/-- Settles O44: the reactive demand, the join, the clamp and the rate limit, each by its own equations. -/
theorem demandIsJoinedClampedAndRateLimited : Obligations.DemandIsJoinedClampedAndRateLimited := by
  intro p r position velocity effect last d reference
  refine ⟨?lost, ?used, ?noSegment, ?segment, rfl, Profile.limitRate_up, Profile.limitRate_down,
    Profile.limitRate_reached, fun ordered => computeDemand_between ordered r position velocity effect last⟩
  case lost =>
    rintro rfl
    rfl
  case used =>
    rintro v rfl
    exact p.reactive_some v
  case noSegment =>
    rintro rfl
    exact ⟨rfl, rfl⟩
  case segment =>
    rintro x rfl
    refine ⟨rfl, fun alone => combinedDemand_replaces alone _ _, fun free row => ?_, fun free row => ?_⟩
    · exact (combinedDemand_row free _ _).trans (row ▸ CombineMode.join_max _ _)
    · exact (combinedDemand_row free _ _).trans (row ▸ CombineMode.join_min _ _)

end Sys2Proof.Machine
end

section
/-! What ends every update: the quiet indication with the trim that it starts (R107, R138, R139), and the bookkeeping (R113,
R116); and the update outside RUN, which does no more (R91). -/

namespace Sys2Proof.Machine

/-! ## The quiet indication (R107, R138, R139) -/

/-- A driver after its Corner Controller has told it quiet or not: in DRIVE it starts a trim that is due or asked for. -/
def Vd.told (v : Vd) (quiet : Bool) : Vd :=
  if v.state = .drive ∧ quiet = true ∧ (0 < v.balance ∨ 0 < v.pullIn) then
    { v with
      quiet, state := .trim, operation := .running Config.trimTime, tracking := .stopped
      trim := some { origin := .drive, kind := if 0 < v.balance then .due else .pullIn } }
  else { v with quiet }

theorem State.setVd_setVd (s : State) (c : Corner) (v w : Vd) : (s.setVd c v).setVd c w = s.setVd c w := by
  simp [State.setVd]

theorem State.setCc_setCc (s : State) (c : Corner) (x y : Cc) : (s.setCc c x).setCc c y = s.setCc c y := by
  simp [State.setCc]

theorem State.tellQuiet_eq (s : State) (c : Corner) (quiet : Bool) :
    s.tellQuiet c quiet = s.setVd c ((s.vd.get c).told quiet) := by
  simp only [State.tellQuiet, State.driveStartTest, State.startTrim, State.setVd_setVd, State.setVd_vd,
    PerCorner.get_set_same, Vd.told]
  by_cases listens : (s.vd.get c).state = .drive ∧ quiet = true
  · obtain ⟨drive, rfl⟩ := listens
    by_cases due : 0 < (s.vd.get c).balance
    · simp [drive, due]
    · by_cases asked : 0 < (s.vd.get c).pullIn
      · simp [drive, due, asked]
      · simp [drive, due, asked]
  · rw [if_neg listens, if_neg fun both => listens ⟨both.1, both.2.1⟩]

theorem Vd.told_notDrive {v : Vd} (h : v.state ≠ .drive) (quiet : Bool) : v.told quiet = { v with quiet } :=
  if_neg fun both => h both.1

@[simp] theorem Vd.told_demand (v : Vd) (quiet : Bool) :
    (v.told quiet).heldDemand = v.heldDemand ∧ (v.told quiet).setpoint = v.setpoint := by
  unfold Vd.told
  split <;> exact ⟨rfl, rfl⟩

/-! ## The bookkeeping (R113, R116) -/

theorem BitState.accrue_eq (b : BitState) (derived enabled : Bool) (origin : OriginRecord) :
    b.accrue derived enabled origin =
      if derived = true ∧ b = .clear then (if enabled = true then .waiting origin else .unreported) else b := by
  cases b with
  | clear => cases derived <;> simp [BitState.accrue]
  | unreported | waiting | reported => simp [BitState.accrue]

theorem BitState.accrue_notDerived (b : BitState) (enabled : Bool) (origin : OriginRecord) :
    b.accrue false enabled origin = b := by
  rw [BitState.accrue_eq, if_neg fun both => Bool.false_ne_true both.1]

/-- An update captures the origin where an enabled bit is newly raised (R116). -/
theorem Cc.captures_iff (x : Cc) (u : UpdateSet) :
    x.captures u = true ↔ ∃ b, x.bits.get b = .clear ∧ u.derived.get b = true ∧ x.enabled.get b = true := by
  have all (b : AccruedBit) : b ∈ accruedBits := by cases b <;> decide
  simp only [Cc.captures, List.any_eq_true, Bool.and_eq_true, beq_iff_eq, and_assoc, all, true_and]

/-- MISS is derived into GAP alone (R113). -/
theorem UpdateSet.derived_miss (miss : Bool) :
    ({ miss } : UpdateSet).derived = { limit := false, gap := miss, sense := false, holdup := false, unmet := false } :=
  rfl

theorem Cc.captures_miss (x : Cc) (miss : Bool) :
    x.captures { miss } = true ↔ miss = true ∧ x.bits.gap = .clear ∧ x.enabled.gap = true := by
  rw [Cc.captures_iff, UpdateSet.derived_miss]
  constructor
  · rintro ⟨b, clear, derived, enabled⟩
    cases b with
    | gap => exact ⟨derived, clear, enabled⟩
    | limit | sense | holdup | unmet => cases derived
  · rintro ⟨derived, clear, enabled⟩
    exact ⟨.gap, clear, derived, enabled⟩

/-- Bookkeeping with MISS as the only condition. -/
theorem Cc.accrue_miss (x : Cc) (miss : Bool) (captured : OriginRecord) :
    let origin := if miss = true ∧ x.bits.gap = .clear ∧ x.enabled.gap = true then captured else x.origin
    x.accrue { miss } captured =
      { x with
        conditions := { miss }, origin
        bits :=
          { x.bits with
            gap :=
              if miss = true ∧ x.bits.gap = .clear then (if x.enabled.gap = true then .waiting origin else .unreported)
              else x.bits.gap } } := by
  intro origin
  have bits (o : OriginRecord) :
      (PerBit.of fun b => (x.bits.get b).accrue (({ miss } : UpdateSet).derived.get b) (x.enabled.get b) o) =
        { x.bits with gap := x.bits.gap.accrue miss x.enabled.gap o } := by
    apply PerBit.ext_get
    intro b
    rw [PerBit.get_of, UpdateSet.derived_miss]
    cases b with
    | gap => rfl
    | limit | sense | holdup | unmet => exact BitState.accrue_notDerived _ _ _
  simp only [Cc.accrue, bits, Cc.captures_miss]
  rw [BitState.accrue_eq]

/-! ## The update outside RUN (R91) -/

/-- An update outside RUN, while the reset input is not held. -/
theorem exec_update_outsideRun {s : State} (free : s.resetHeld = false) (outside : s.mdc.mode ≠ .run) (c : Corner)
    (raw : Int) : exec (.update c raw) s = .next (s.updateOutsideRun c) :=
  congrArg Host.Outcome.next ((State.unlessHeld_free free _).trans (if_neg outside))

/-- Settles O45: the quiet indication starts no trim outside DRIVE, and the bookkeeping has MISS alone to note. -/
theorem updateOutsideRunOnlyTakesTheNotice : Obligations.UpdateOutsideRunOnlyTakesTheNotice := by
  intro s c raw free outside notDrive x u captures origin
  rw [exec_update_outsideRun free outside, State.updateOutsideRun, State.tellQuiet_eq, State.bookkeep]
  simp only [State.setCc_vd, State.setVd_cc, State.setCc_cc, PerCorner.get_set_same, Vd.told_notDrive notDrive,
    Cc.accrue_miss, State.captureOrigin]
  exact congrArg Host.Outcome.next (State.setCc_setCc (s.setVd c { s.vd.get c with quiet := true }) c _ _)

end Sys2Proof.Machine
end

section
/-! The update in RUN (R90): its demand and the hand-over, its conditions and its bookkeeping, and the driver that it leaves,
each read off the states on its way. -/

namespace Sys2Proof.Machine

/-! ## What a switch leaves of the configuration (R85) -/

/-- A configuration with the profile selection of another. -/
def Cfs.selecting (f g : Cfs) : Cfs :=
  { f with active := g.active, pendingProfile := g.pendingProfile, profileMarker := g.profileMarker }

theorem State.hasSwitched_cfs {s t : State} {c : Corner} (h : s.hasSwitched t c) : t.cfs = s.cfs.selecting t.cfs := by
  obtain ⟨p, _, _, _, _, last, notLast⟩ := h
  by_cases all : ∀ e, e ≠ c → (s.cc.get e).followed = p
  · rw [last all]
    rfl
  · have other : ∃ e, e ≠ c ∧ (s.cc.get e).followed ≠ p := by simpa using all
    rw [notLast other]
    rfl

theorem State.boundaryTested_cfs (s : State) (c : Corner) :
    (s.boundaryTested c).cfs = s.cfs.selecting (s.boundaryTested c).cfs := by
  by_cases h : s.switchesAtTest c
  · exact State.hasSwitched_cfs (State.boundaryTested_switched h)
  · rw [State.boundaryTested_kept h]
    rfl

/-! ## What a hand-over and a velocity read -/

section Reads

variable {s t : State} {c : Corner}

theorem State.map_of_groups (groups : t.cfs = s.cfs.selecting t.cfs) : t.map c = s.map c := by
  unfold State.map
  rw [groups]
  rfl

theorem State.geometry_of_groups (groups : t.cfs = s.cfs.selecting t.cfs) : t.geometry = s.geometry := by
  unfold State.geometry
  rw [groups]
  rfl

theorem State.cornerPosition_of_groups (groups : t.cfs = s.cfs.selecting t.cfs) (tod : t.tod = s.tod) :
    t.cornerPosition c = s.cornerPosition c := by
  simp only [State.cornerPosition, State.rolePosition, State.geometry_of_groups groups, tod]

theorem State.followedProfile_congr (cfs : t.cfs = s.cfs) (followed : (t.cc.get c).followed = (s.cc.get c).followed) :
    t.followedProfile c = s.followedProfile c := by
  unfold State.followedProfile State.profile
  rw [cfs, followed]

theorem State.velocityUsed_congr (cfs : t.cfs = s.cfs)
    (sensed : ∀ e, (t.cc.get e).sensor = (s.cc.get e).sensor ∧ (t.cc.get e).ownVelocity = (s.cc.get e).ownVelocity) :
    t.velocityUsed c = s.velocityUsed c := by
  obtain ⟨sensor, own⟩ := sensed c
  obtain ⟨partnerSensor, partner⟩ := sensed c.partner
  rw [State.velocityUsed_eq, State.velocityUsed_eq, State.geometry, State.geometry, cfs, sensor, own, partnerSensor,
    partner]

end Reads

theorem State.handOver_vd (s : State) (c : Corner) (effect : Option Slot) (d : Demand) :
    (s.handOver c effect d).vd = s.vd.set c
      { s.vd.get c with
        heldDemand := d.final
        setpoint := if (s.vd.get c).state = .drive then (s.map c).current d.final else (s.vd.get c).setpoint } := by
  cases effect with
  | none => rfl
  | some z =>
    rw [State.handOver]
    by_cases overridden : z.segment.override.isSome = true
    · rw [if_pos overridden]
      rfl
    · rw [if_neg overridden]
      rfl

/-- The conditions of an update, each as R112 gives it. -/
theorem State.conditionsOf_eq (s : State) (c : Corner) (miss : Bool) (driver : DriverState) (effect : Option Slot) :
    let computes := driver = .drive ∨ driver = .trim ∨ driver = .hold
    let lost := (s.cc.get c).sensor = .lost
    let d := s.demandOf c effect
    s.conditionsOf c miss driver effect =
      { miss
        subst := decide (lost ∧ s.velocityUsed c ≠ none)
        slost := decide (lost ∧ s.velocityUsed c = none)
        nopv := decide (computes ∧ effect = none ∧ s.pvs.preview = .active ∧ (s.tod.get c.track).lock = .locked)
        ovrd := decide (computes ∧ ∃ z, effect = some z ∧ z.segment.override.isSome = true)
        sat := decide (computes ∧ d.target ≠ d.combined)
        rate := decide (computes ∧ d.final ≠ d.target)
        held := decide (driver = .trim) } := by
  intro computes lost d
  have overridden : overrides effect = true ↔ ∃ z, effect = some z ∧ z.segment.override.isSome = true := by
    cases effect <;> simp [overrides]
  have trims : (driver = .drive ∨ driver = .trim ∨ driver = .hold) ∧ driver = .trim ↔ driver = .trim :=
    and_iff_right_of_imp fun trim => .inr (.inl trim)
  rw [State.conditionsOf, UpdateSet.mk.injEq]
  refine ⟨?_, ?_, ?_, rfl, ?_, ?_, ?_, ?_⟩
  all_goals
    apply Bool.eq_iff_iff.2
    simp only [Bool.and_eq_true, decide_eq_true_iff, DriverState.takesDemand_iff, overridden, State.sensorLost,
      beq_iff_eq, bne_iff_ne, Option.isNone_iff_eq_none, Option.isSome_iff_ne_none, and_assoc, computes, lost, d, trims]

/-! ## The states on the way of an update in RUN (R90) -/

section InRun

variable (s : State) (c : Corner) (raw : Int)

/-- The demand that an update in RUN computes. -/
def State.demandInRun : Demand := (s.updateSensor c raw).demandOf c (s.pvs.inEffect c)

/-- The conditions that an update in RUN raises. -/
def State.conditionsInRun : UpdateSet :=
  (s.updateSensor c raw).conditionsOf c (s.cc.get c).missNotice (s.vd.get c).state (s.pvs.inEffect c)

/-- What an update in RUN leaves for its origin record. -/
def State.traceInRun : UpdateTrace :=
  { driver := (s.vd.get c).state, inEffect := s.pvs.inEffect c
    demand := if (s.vd.get c).state.takesDemand then some (s.demandInRun c raw) else none }

/-- The state in which an update in RUN is presented to the store. -/
def State.presentedInRun : State :=
  (s.updateSensor c raw).setPvs
    ((s.updateSensor c raw).pvs.present c ((s.cc.get c).supplies ((s.geometry.corners.get c).height raw)))

/-- The state after the hand-over of an update in RUN, where it makes one. -/
def State.handedInRun : State :=
  if (s.vd.get c).state.takesDemand then
    (s.presentedInRun c raw).handOver c (s.pvs.inEffect c) (s.demandInRun c raw)
  else s.presentedInRun c raw

theorem State.updateInRun_eq :
    s.updateInRun c raw = ((s.handedInRun c raw).tellQuiet c (s.pvs.inEffect c).isNone).bookkeep c
      (s.conditionsInRun c raw) (s.traceInRun c raw) := by
  have effect : (s.updateSensor c raw).inEffect c = s.pvs.inEffect c := by simp [State.inEffect]
  rw [State.updateInRun, effect]
  rfl

/-- The sample and the boundary test of an update leave a corner's last demand and its bookkeeping. -/
theorem State.updateSensor_cc :
    ∃ z, (s.updateSensor c raw).cc = s.cc.set c z ∧ z.missNotice = false ∧ z.lastDemand = (s.cc.get c).lastDemand
      ∧ z.bits = (s.cc.get c).bits ∧ z.enabled = (s.cc.get c).enabled ∧ z.origin = (s.cc.get c).origin := by
  obtain ⟨_, _, _, tested⟩ := s.boundaryTested_cc c
  rw [State.updateSensor_eq, State.setCc_cc, tested, PerCorner.set_set, PerCorner.get_set_same]
  exact ⟨_, rfl, rfl, rfl, rfl, rfl, rfl⟩

theorem State.updateSensor_cfs : (s.updateSensor c raw).cfs = s.cfs.selecting (s.updateSensor c raw).cfs :=
  s.boundaryTested_cfs c

/-- A corner after the hand-over of an update in RUN (R105). -/
def State.cornerHanded : Cc :=
  { (s.updateSensor c raw).cc.get c with
    lastDemand :=
      if (s.vd.get c).state.takesDemand then (s.demandInRun c raw).final
      else ((s.updateSensor c raw).cc.get c).lastDemand }

/-- A driver after the hand-over of an update in RUN (R129). -/
def State.driverHanded : Vd :=
  if (s.vd.get c).state.takesDemand then
    { s.vd.get c with
      heldDemand := (s.demandInRun c raw).final
      setpoint :=
        if (s.vd.get c).state = .drive then (s.map c).current (s.demandInRun c raw).final else (s.vd.get c).setpoint }
  else s.vd.get c

theorem State.handedInRun_frame :
    (s.handedInRun c raw).cfs = (s.updateSensor c raw).cfs ∧ (s.handedInRun c raw).tod = s.tod := by
  unfold State.handedInRun State.presentedInRun
  split <;> simp

theorem State.handedInRun_cc :
    (s.handedInRun c raw).cc = (s.updateSensor c raw).cc.set c (s.cornerHanded c raw) := by
  unfold State.handedInRun State.cornerHanded
  split
  · exact State.handOver_cc _ c _ _
  · exact ((s.updateSensor c raw).cc.set_get c).symm

theorem State.handedInRun_vd : (s.handedInRun c raw).vd = s.vd.set c (s.driverHanded c raw) := by
  have vd : (s.presentedInRun c raw).vd = s.vd := by simp [State.presentedInRun]
  have map : (s.presentedInRun c raw).map c = s.map c := State.map_of_groups (s.updateSensor_cfs c raw)
  unfold State.handedInRun State.driverHanded
  split
  · rw [State.handOver_vd, vd, map]
  · rw [vd, PerCorner.set_get]

/-! ## What the update leaves -/

theorem State.updateInRun_cfs : (s.updateInRun c raw).cfs = (s.updateSensor c raw).cfs :=
  (s.updateInRun_selection c raw).1

theorem State.updateInRun_groups : (s.updateInRun c raw).cfs = s.cfs.selecting (s.updateInRun c raw).cfs := by
  rw [State.updateInRun_cfs]
  exact s.updateSensor_cfs c raw

/-- The driver after an update in RUN: the demand is handed to it, and then it is told quiet or not. -/
theorem State.updateInRun_vd :
    (s.updateInRun c raw).vd = s.vd.set c ((s.driverHanded c raw).told (s.pvs.inEffect c).isNone) := by
  rw [State.updateInRun_eq, State.tellQuiet_eq, State.bookkeep, State.setCc_vd, State.setVd_vd, State.handedInRun_vd,
    PerCorner.get_set_same, PerCorner.set_set]

/-- The origin record that an update in RUN captures, where it captures one. -/
def State.originInRun : OriginRecord :=
  (s.handedInRun c raw).captureOrigin c (s.conditionsInRun c raw) (s.traceInRun c raw)

/-- The corner after an update in RUN: the demand is handed over, and then the bookkeeping made. -/
theorem State.updateInRun_corner :
    (s.updateInRun c raw).cc = (s.updateSensor c raw).cc.set c
      ((s.cornerHanded c raw).accrue (s.conditionsInRun c raw) (s.originInRun c raw)) := by
  rw [State.updateInRun_eq, State.tellQuiet_eq, State.bookkeep, State.setCc_cc, State.setVd_cc, State.handedInRun_cc,
    PerCorner.get_set_same, PerCorner.set_set]
  rfl

/-- Every corner's sensor, velocity and profile are after an update in RUN what they were when its demand was computed. -/
theorem State.updateInRun_sensed (e : Corner) :
    ((s.updateInRun c raw).cc.get e).sensor = ((s.updateSensor c raw).cc.get e).sensor
      ∧ ((s.updateInRun c raw).cc.get e).ownVelocity = ((s.updateSensor c raw).cc.get e).ownVelocity
      ∧ ((s.updateInRun c raw).cc.get e).followed = ((s.updateSensor c raw).cc.get e).followed := by
  rw [State.updateInRun_corner, PerCorner.get_set]
  split
  · rename_i same
    subst same
    exact ⟨rfl, rfl, rfl⟩
  · exact ⟨rfl, rfl, rfl⟩

theorem State.updateInRun_velocityUsed :
    (s.updateInRun c raw).velocityUsed c = (s.updateSensor c raw).velocityUsed c :=
  State.velocityUsed_congr (s.updateInRun_cfs c raw) fun e =>
    let ⟨sensor, own, _⟩ := s.updateInRun_sensed c raw e
    ⟨sensor, own⟩

/-- The demand of an update in RUN, from what the update leaves and the former last demand (R99 to R104). -/
theorem State.demandInRun_eq :
    s.demandInRun c raw =
      computeDemand ((s.updateInRun c raw).followedProfile c) c.role (s.cornerPosition c)
        ((s.updateInRun c raw).velocityUsed c) (s.pvs.inEffect c) (s.cc.get c).lastDemand := by
  obtain ⟨z, cc, _, last, _⟩ := s.updateSensor_cc c raw
  have position : (s.updateSensor c raw).cornerPosition c = s.cornerPosition c :=
    State.cornerPosition_of_groups (s.updateSensor_cfs c raw) (by simp)
  obtain ⟨_, _, followed⟩ := s.updateInRun_sensed c raw c
  rw [State.demandInRun, State.demandOf, position, ← State.updateInRun_velocityUsed,
    ← State.followedProfile_congr (s.updateInRun_cfs c raw) followed, cc, PerCorner.get_set_same, last]

/-- The origin record that an update in RUN captures, from what the update leaves (R119). -/
theorem State.originInRun_eq :
    let computes := (s.vd.get c).state = .drive ∨ (s.vd.get c).state = .trim ∨ (s.vd.get c).state = .hold
    let d := s.demandInRun c raw
    s.originInRun c raw =
      { tag := match s.pvs.inEffect c with
          | none => 0
          | some z => z.segment.tag
        role := some c.role, position := some (s.cornerPosition c)
        previewDemand := if computes then d.preview else none
        reactiveDemand := if computes then some d.reactive else none
        finalDemand := if computes then some d.final else none
        conditions := some (s.conditionsInRun c raw), driverState := some (s.vd.get c).state
        followed := some ((s.updateInRun c raw).cc.get c).followed } := by
  intro computes d
  obtain ⟨cfs, tod⟩ := s.handedInRun_frame c raw
  have groups : (s.handedInRun c raw).cfs = s.cfs.selecting (s.handedInRun c raw).cfs := by
    rw [cfs]
    exact s.updateSensor_cfs c raw
  obtain ⟨_, _, followed⟩ := s.updateInRun_sensed c raw c
  rw [State.originInRun, State.captureOrigin, State.cornerPosition_of_groups groups tod, State.handedInRun_cc,
    PerCorner.get_set_same, followed]
  by_cases takes : (s.vd.get c).state.takesDemand = true
  · have computes : computes := (DriverState.takesDemand_iff _).1 takes
    simp only [State.traceInRun, if_pos takes, if_pos computes]
    rfl
  · have idle : ¬computes := mt (DriverState.takesDemand_iff _).2 takes
    simp only [State.traceInRun, if_neg takes, if_neg idle]
    rfl

/-- What the bookkeeping of an update reads of its corner is as it was before the update. -/
theorem Cc.accrue_congr {x z : Cc} (bits : z.bits = x.bits) (enabled : z.enabled = x.enabled)
    (origin : z.origin = x.origin) (u : UpdateSet) (captured : OriginRecord) :
    (z.accrue u captured).bits = (x.accrue u captured).bits
      ∧ (z.accrue u captured).origin = (x.accrue u captured).origin := by
  have captures : z.captures u = x.captures u := by
    unfold Cc.captures
    rw [bits, enabled]
  unfold Cc.accrue
  rw [captures, bits, enabled, origin]
  exact ⟨rfl, rfl⟩

/-- What an update in RUN leaves of its corner beyond the sample: the last demand and the bookkeeping (R105, R116). -/
theorem State.updateInRun_bookkept :
    let x := s.cc.get c
    let y := (s.updateInRun c raw).cc.get c
    let kept := x.accrue (s.conditionsInRun c raw) (s.originInRun c raw)
    y.lastDemand = (if (s.vd.get c).state.takesDemand then (s.demandInRun c raw).final else x.lastDemand)
      ∧ y.missNotice = false ∧ y.conditions = s.conditionsInRun c raw ∧ y.bits = kept.bits ∧ y.origin = kept.origin
      ∧ y.enabled = x.enabled := by
  intro x y kept
  obtain ⟨z, cc, notice, last, bits, enabled, origin⟩ := s.updateSensor_cc c raw
  have sensed : (s.updateSensor c raw).cc.get c = z := by rw [cc, PerCorner.get_set_same]
  have corner : y = (s.cornerHanded c raw).accrue (s.conditionsInRun c raw) (s.originInRun c raw) := by
    simp only [y, State.updateInRun_corner, PerCorner.get_set_same]
  rw [State.cornerHanded, sensed, last] at corner
  obtain ⟨bitsKept, originKept⟩ := Cc.accrue_congr (x := x) (z := { z with lastDemand := _ }) bits enabled origin
    (s.conditionsInRun c raw) (s.originInRun c raw)
  rw [corner]
  exact ⟨rfl, notice, rfl, bitsKept, originKept, enabled⟩

/-- What an update in RUN leaves of its driver: the hand-over, and the trim that the quiet indication starts. -/
theorem State.updateInRun_driver :
    let driver := (s.vd.get c).state
    let d := s.demandInRun c raw
    let w := (s.updateInRun c raw).vd.get c
    w.heldDemand = (if driver.takesDemand then d.final else (s.vd.get c).heldDemand)
      ∧ w.setpoint = (if driver = .drive then (s.map c).current d.final else (s.vd.get c).setpoint)
      ∧ w = ({ s.vd.get c with heldDemand := w.heldDemand, setpoint := w.setpoint } : Vd).told
        (s.pvs.inEffect c).isNone := by
  intro driver d w
  have told : w = (s.driverHanded c raw).told (s.pvs.inEffect c).isNone := by
    simp only [w, State.updateInRun_vd, PerCorner.get_set_same]
  have handed : s.driverHanded c raw =
      { s.vd.get c with
        heldDemand := if driver.takesDemand then d.final else (s.vd.get c).heldDemand
        setpoint := if driver = .drive then (s.map c).current d.final else (s.vd.get c).setpoint } := by
    rw [State.driverHanded]
    by_cases takes : (s.vd.get c).state.takesDemand = true
    · simp only [driver, d, if_pos takes]
    · have notDrive : (s.vd.get c).state ≠ .drive := fun drive => takes (drive ▸ rfl)
      simp only [driver, if_neg takes, if_neg notDrive]
  rw [told, handed]
  simp only [Vd.told_demand, and_self]

theorem State.updateInRun_others {e : Corner} (other : e ≠ c) :
    (s.updateInRun c raw).cc.get e = s.cc.get e ∧ (s.updateInRun c raw).vd.get e = s.vd.get e := by
  obtain ⟨z, cc, _⟩ := s.updateSensor_cc c raw
  rw [State.updateInRun_corner, State.updateInRun_vd, cc, PerCorner.set_set, PerCorner.get_set_ne other,
    PerCorner.get_set_ne other]
  exact ⟨rfl, rfl⟩

end InRun

/-! ## The profile, the position and the place of a corner (R2, R74) -/

theorem State.followedProfile_set (s : State) (c : Corner) (p : Profile) :
    ((s.cc.get c).followed = .a → s.cfs.profileA = some p → s.followedProfile c = p)
      ∧ ((s.cc.get c).followed = .b → s.cfs.profileB = some p → s.followedProfile c = p) := by
  unfold State.followedProfile
  constructor
  all_goals
    intro followed set
    rw [followed, State.profile, set, Option.getD_some]

theorem State.cornerPosition_front {s : State} {c : Corner} (role : c.role = .front) :
    s.cornerPosition c = (s.tod.get c.track).position := by
  rw [State.cornerPosition, role]
  rfl

theorem State.cornerPosition_rear {s : State} {c : Corner} (role : c.role = .rear) :
    s.cornerPosition c = (s.tod.get c.track).position - BitVec.ofNat 32 s.geometry.wheelbase := by
  rw [State.cornerPosition, role]
  rfl

theorem Corner.corner_track_role (c : Corner) : c.track.corner c.role = c := by cases c <;> rfl

/-- Settles O42: the corner after the update by `State.updateInRun_bookkept` and the driver by `State.updateInRun_driver`,
with the demand, the conditions and the origin read off the state that the update leaves. -/
theorem updateInRunHandsTheDemandOver : Obligations.UpdateInRunHandsTheDemandOver := by
  refine ⟨fun s c raw free run => ?_, State.followedProfile_set,
    fun _ _ => ⟨State.cornerPosition_front, State.cornerPosition_rear⟩, rfl, Corner.corner_track_role⟩
  intro driver effect computes x
  refine ⟨_, exec_update_run free run c raw, ?_⟩
  intro y d lost captured
  have demand : s.demandInRun c raw = d := s.demandInRun_eq c raw
  obtain ⟨last, notice, conditions, bits, origin, enabled⟩ := s.updateInRun_bookkept c raw
  obtain ⟨heldDemand, setpoint, told⟩ := s.updateInRun_driver c raw
  obtain ⟨sensor, _⟩ := s.updateInRun_sensed c raw c
  have capturedIs : s.originInRun c raw = captured := by
    have read := s.originInRun_eq c raw
    rw [← conditions, demand] at read
    exact read
  rw [demand] at last heldDemand setpoint
  rw [← conditions, capturedIs] at bits origin
  refine ⟨fun takes => ?takes, fun idle => ?idle, notice, conditions.trans ?conditions, bits, origin, enabled, ?driver,
    fun e other => s.updateInRun_others c raw other, by simp, by simp, by simp, by simp, s.updateInRun_groups c raw⟩
  case takes =>
    rw [if_pos ((DriverState.takesDemand_iff _).2 takes)] at last heldDemand
    exact ⟨last, heldDemand, setpoint, fun ordered => computeDemand_between ordered _ _ _ _ _⟩
  case idle =>
    rw [if_neg (mt (DriverState.takesDemand_iff _).1 idle)] at last heldDemand
    rw [if_neg fun drive => idle (.inl drive)] at setpoint
    exact ⟨last, heldDemand, setpoint⟩
  case conditions =>
    refine (State.conditionsOf_eq (s.updateSensor c raw) c _ _ _).trans ?_
    rw [State.demandInRun] at demand
    simp only [lost, y, sensor, State.updateInRun_velocityUsed, State.updateSensor_frame, demand]
    rfl
  case driver =>
    refine told.trans ?_
    simp only [Vd.told, Option.isNone_iff_eq_none]
    rfl

end Sys2Proof.Machine
end

section
/-! The requests of chapter 06, SET_REPORTING, CLEAR_CONDITIONS and READ_ORIGIN: the judgement of each, one equation per
finding, and the statements of the family that they settle. -/

namespace Sys2Proof.Machine

/-! ## Corners and bit sets as carried (R199) -/

theorem cornerOf_of_three_lt {b : Byte} (h : 3 < b.toNat) : cornerOf b = none := by
  obtain ⟨not0, not1, not2, not3⟩ : b ≠ 0 ∧ b ≠ 1 ∧ b ≠ 2 ∧ b ≠ 3 := by bv_omega
  rw [cornerOf, if_neg not0, if_neg not1, if_neg not2, if_neg not3]

theorem exists_cornerOf_of_le_three {b : Byte} (h : b.toNat ≤ 3) : ∃ c, cornerOf b = some c := by
  obtain rfl | rfl | rfl | rfl : b = 0 ∨ b = 1 ∨ b = 2 ∨ b = 3 := by bv_omega
  · exact ⟨.fl, rfl⟩
  · exact ⟨.fr, rfl⟩
  · exact ⟨.rl, rfl⟩
  · exact ⟨.rr, rfl⟩

theorem bitSetOf_of_lt {b : Byte} (h : b.toNat < 32) :
    bitSetOf b = some ⟨b.getLsbD 0, b.getLsbD 1, b.getLsbD 2, b.getLsbD 3, b.getLsbD 4⟩ := if_pos h

theorem bitSetOf_of_le {b : Byte} (h : 32 ≤ b.toNat) : bitSetOf b = none := if_neg (Nat.not_lt.2 h)

/-- Requests are judged of the corners as they stood before their delivery. -/
theorem State.delivered_cc (s : State) : s.delivered.cc = s.cc := by simp

/-! ## SET_REPORTING (R115, R117, R118) -/

/-- A delivered SET_REPORTING is judged, and its reply placed. -/
theorem exec_setReporting {s : State} (h : s.delivers) (corner bits : Byte) :
    exec (.setReporting corner bits) s =
      .next ((judgeSetReporting corner bits s.delivered).1.place
        (.reply (judgeSetReporting corner bits s.delivered).2)) :=
  congrArg Host.Outcome.next (State.takeRequest_delivers h (judgeSetReporting corner bits))

theorem BitState.enable_eq (b : BitState) (enabled : Bool) (origin : OriginRecord) :
    b.enable enabled origin = if b = .unreported ∧ enabled = true then .waiting origin else b := by
  cases b with
  | unreported => cases enabled <;> rfl
  | clear | waiting | reported => rfl

section JudgeSetReporting

variable {s : State} {corner bits : Byte} {c : Corner}

theorem judgeSetReporting_noCorner (h : cornerOf corner = none) :
    judgeSetReporting corner bits s = (s, .setReporting .range corner PerBit.noBits) := by
  simp only [judgeSetReporting, h]

theorem judgeSetReporting_noBits (h : cornerOf corner = some c) (none : bitSetOf bits = none) :
    judgeSetReporting corner bits s = (s, .setReporting .range corner (s.cc.get c).enabled) := by
  simp only [judgeSetReporting, h, none]

theorem judgeSetReporting_accepts (h : cornerOf corner = some c) {enabled : PerBit Bool}
    (named : bitSetOf bits = some enabled) :
    judgeSetReporting corner bits s =
      (s.setCc c ((s.cc.get c).report enabled), .setReporting .ok corner enabled) := by
  simp only [judgeSetReporting, h, named]

end JudgeSetReporting

/-- Settles O47: the three findings of R115 in turn, and the bits of the accepted one by `BitState.enable_eq`. -/
theorem setReportingReplacesTheEnableSet : Obligations.SetReportingReplacesTheEnableSet := by
  intro s corner bits delivers refuse new
  rw [exec_setReporting delivers]
  refine ⟨fun outside => ?_, fun c named => ⟨fun outside => ?_, fun inside => ?_⟩⟩
  · rw [judgeSetReporting_noCorner (cornerOf_of_three_lt outside)]
    rfl
  · rw [judgeSetReporting_noBits named (bitSetOf_of_le outside), State.delivered_cc]
  · rw [judgeSetReporting_accepts named (bitSetOf_of_lt inside)]
    simp only [State.delivered_frame, Cc.report, BitState.enable_eq, new]

/-! ## CLEAR_CONDITIONS (R122) -/

/-- A delivered CLEAR_CONDITIONS is judged, and its reply placed. -/
theorem exec_clearConditions {s : State} (h : s.delivers) (corner bits : Byte) :
    exec (.clearConditions corner bits) s =
      .next ((judgeClearConditions corner bits s.delivered).1.place
        (.reply (judgeClearConditions corner bits s.delivered).2)) :=
  congrArg Host.Outcome.next (State.takeRequest_delivers h (judgeClearConditions corner bits))

/-- A bit is set in every state but CLEAR (R114). -/
theorem BitState.isSet_iff (b : BitState) : b.isSet = true ↔ b ≠ .clear := by
  cases b with
  | clear => exact ⟨fun set => absurd set Bool.false_ne_true, fun other => absurd rfl other⟩
  | unreported | waiting | reported => simp [BitState.isSet]

theorem allClear_iff (bits : PerBit BitState) : allClear bits = true ↔ ∀ b, bits.get b = .clear := by
  have all (b : AccruedBit) : b ∈ accruedBits := by cases b <;> decide
  have unset (b : BitState) : b.isSet = false ↔ b = .clear := by
    rw [← Bool.not_eq_true, BitState.isSet_iff, Decidable.not_not]
  simp only [allClear, List.all_eq_true, Bool.not_eq_true', unset, all, true_imp_iff]

section JudgeClearConditions

variable {s : State} {corner bits : Byte} {c : Corner}

theorem judgeClearConditions_noCorner (h : cornerOf corner = none) :
    judgeClearConditions corner bits s = (s, .clearConditions .range corner PerBit.noBits) := by
  simp only [judgeClearConditions, h]

theorem judgeClearConditions_noBits (h : cornerOf corner = some c) (none : bitSetOf bits = none) :
    judgeClearConditions corner bits s = (s, .clearConditions .range corner (accruedSet (s.cc.get c).bits)) := by
  simp only [judgeClearConditions, h, none]

theorem judgeClearConditions_accepts (h : cornerOf corner = some c) {named : PerBit Bool}
    (carried : bitSetOf bits = some named) :
    judgeClearConditions corner bits s =
      (s.setCc c ((s.cc.get c).clear named),
        .clearConditions .ok corner (accruedSet (clearBits (s.cc.get c).bits named))) := by
  simp only [judgeClearConditions, h, carried, Cc.clear]

end JudgeClearConditions

/-- Settles O48: the three findings of R122 in turn; the accepted one leaves the empty origin record exactly where every
bit is then CLEAR, by `allClear_iff`. -/
theorem clearConditionsClearsTheBitsNamed : Obligations.ClearConditionsClearsTheBitsNamed := by
  intro s corner bits delivers refuse named
  rw [exec_clearConditions delivers]
  refine ⟨fun outside => ?_, fun c carried => ?_⟩
  · rw [judgeClearConditions_noCorner (cornerOf_of_three_lt outside)]
    rfl
  intro x after
  refine ⟨fun outside => ?_, fun inside => ?_⟩
  · rw [judgeClearConditions_noBits carried (bitSetOf_of_le outside), State.delivered_cc]
    rfl
  · rw [judgeClearConditions_accepts carried (bitSetOf_of_lt inside), State.delivered_cc]
    refine ⟨(x.clear named).origin, rfl, fun all => ?_, fun ⟨b, set⟩ => ?_⟩
    · exact if_pos ((allClear_iff after).2 all)
    · exact if_neg fun all => set ((allClear_iff after).1 all b)

/-! ## READ_ORIGIN (R121) -/

/-- A delivered READ_ORIGIN is judged, and its reply placed. -/
theorem exec_readOrigin {s : State} (h : s.delivers) (corner : Byte) :
    exec (.readOrigin corner) s =
      .next ((judgeReadOrigin corner s.delivered).1.place (.reply (judgeReadOrigin corner s.delivered).2)) :=
  congrArg Host.Outcome.next (State.takeRequest_delivers h (judgeReadOrigin corner))

theorem judgeReadOrigin_noCorner {corner : Byte} (h : cornerOf corner = none) (s : State) :
    judgeReadOrigin corner s = (s, .readOrigin .range corner PerBit.noBits OriginRecord.empty) := by
  simp only [judgeReadOrigin, h]

theorem judgeReadOrigin_corner {corner : Byte} {c : Corner} (h : cornerOf corner = some c) (s : State) :
    judgeReadOrigin corner s =
      (s, .readOrigin .ok corner (accruedSet (s.cc.get c).bits) (s.cc.get c).origin) := by
  simp only [judgeReadOrigin, h]

/-- Settles O49: both findings of R121 leave the state as it was delivered. -/
theorem readOriginReportsTheRecord : Obligations.ReadOriginReportsTheRecord := by
  intro s corner delivers
  rw [exec_readOrigin delivers]
  refine ⟨fun outside => ?_, fun inside => ?_⟩
  · rw [judgeReadOrigin_noCorner (cornerOf_of_three_lt outside)]
    rfl
  · obtain ⟨c, named⟩ := exists_cornerOf_of_le_three inside
    refine ⟨c, named, ?_⟩
    rw [judgeReadOrigin_corner named, State.delivered_cc]
    rfl

end Sys2Proof.Machine
end

section
/-! The accrued bits (chapter 06): the bookkeeping of an update for any conditions, which operations leave the bits of a
corner as they were, and that a set bit stays set under every command but CLEAR_CONDITIONS, RESTART and full reset. -/

namespace Sys2Proof.Machine

/-! ## The bookkeeping (R113, R116) -/

/-- An update newly raises a bit: the bit was CLEAR and is derived true (R116). -/
abbrev Cc.raises (x : Cc) (u : UpdateSet) (b : AccruedBit) : Prop :=
  x.bits.get b = .clear ∧ u.derived.get b = true

theorem Cc.accrue_bits_get (x : Cc) (u : UpdateSet) (captured : OriginRecord) (b : AccruedBit) :
    (x.accrue u captured).bits.get b =
      (x.bits.get b).accrue (u.derived.get b) (x.enabled.get b) (x.accrue u captured).origin :=
  PerBit.get_of _ b

section Accrue

variable {x : Cc} {u : UpdateSet} (captured : OriginRecord)

theorem Cc.accrue_origin_captured (h : ∃ b, x.raises u b ∧ x.enabled.get b = true) :
    (x.accrue u captured).origin = captured := by
  obtain ⟨b, ⟨clear, derived⟩, enabled⟩ := h
  exact if_pos ((x.captures_iff u).2 ⟨b, clear, derived, enabled⟩)

theorem Cc.accrue_origin_kept (h : ∀ b, x.raises u b → x.enabled.get b = false) :
    (x.accrue u captured).origin = x.origin := by
  refine if_neg fun captures => ?_
  obtain ⟨b, clear, derived, enabled⟩ := (x.captures_iff u).1 captures
  exact Bool.false_ne_true ((h b ⟨clear, derived⟩).symm.trans enabled)

theorem Cc.accrue_bits_raised {b : AccruedBit} (h : x.raises u b) :
    (x.accrue u captured).bits.get b = if x.enabled.get b = true then .waiting captured else .unreported := by
  rw [Cc.accrue_bits_get, BitState.accrue_eq, if_pos h.symm]
  by_cases enabled : x.enabled.get b = true
  · rw [if_pos enabled, if_pos enabled, Cc.accrue_origin_captured captured ⟨b, h, enabled⟩]
  · rw [if_neg enabled, if_neg enabled]

theorem Cc.accrue_bits_kept {b : AccruedBit} (h : ¬x.raises u b) :
    (x.accrue u captured).bits.get b = x.bits.get b := by
  rw [Cc.accrue_bits_get, BitState.accrue_eq, if_neg fun both => h both.symm]

end Accrue

/-! ## A set bit stays set at its corner (R113, R117) -/

theorem Cc.accrue_isSet {x : Cc} {b : AccruedBit} (h : (x.bits.get b).isSet = true) (u : UpdateSet)
    (captured : OriginRecord) : ((x.accrue u captured).bits.get b).isSet = true := by
  rwa [Cc.accrue_bits_kept captured fun raised => (BitState.isSet_iff _).1 h raised.1]

/-- SET_REPORTING clears no bit: UNREPORTED becomes WAITING, which is set as well. -/
theorem Cc.report_isSet {x : Cc} {b : AccruedBit} (h : (x.bits.get b).isSet = true) (enabled : PerBit Bool) :
    ((x.report enabled).bits.get b).isSet = true := by
  rw [Cc.report, PerBit.get_of, BitState.enable_eq]
  split
  · rfl
  · exact h

/-! ## What leaves the bits as they were: the profile switch (SwitchOps) -/

/-- A write of one corner that keeps its bits keeps the bits of every corner. -/
theorem PerCorner.bits_get_set {p : PerCorner Cc} {c : Corner} {x : Cc} (h : x.bits = (p.get c).bits) (e : Corner) :
    ((p.set c x).get e).bits = (p.get e).bits := by
  by_cases same : e = c
  · rw [same, PerCorner.get_set_same, h]
  · rw [PerCorner.get_set_ne same]

section Bits

variable (s : State) (c e : Corner)

@[simp] theorem State.driverLeft_bits (former : DriverState) :
    ((s.driverLeft c former).cc.get e).bits = (s.cc.get e).bits := by
  obtain ⟨_, _, _, cc⟩ := s.driverLeft_cc c former
  rw [cc]
  exact PerCorner.bits_get_set (by rfl) e

@[simp] theorem State.acceptSwitch_bits (p : ProfileName) :
    ((s.acceptSwitch p).cc.get e).bits = (s.cc.get e).bits := by
  have begun : (s.begun p e).bits = (s.cc.get e).bits := by
    unfold State.begun
    split <;> rfl
  cases mode : s.mdc.mode with
  | config | standby => simp [State.acceptSwitch, mode, State.immediateSwitch]
  | starting | run => simpa [State.acceptSwitch, mode, State.beginSwitch_eq, State.allBegun] using begun
  | safe => simp [State.acceptSwitch, mode]

@[simp] theorem State.switchAtStandby_bits : (s.switchAtStandby.cc.get e).bits = (s.cc.get e).bits := by
  cases pending : s.cfs.pendingProfile with
  | none => rw [State.switchAtStandby_idle pending]
  | some p =>
    simp only [State.switchAtStandby_eq pending, State.completeSwitch_frame, State.allOvertaken, PerCorner.get_of,
      State.overtaken]
    split <;> rfl

/-! ## The drivers (DriverOps, Drivers) -/

@[simp] theorem State.enterHold_bits : ((s.enterHold c).cc.get e).bits = (s.cc.get e).bits := by
  simp [State.enterHold]

@[simp] theorem State.enterDriveAtFloor_bits : ((s.enterDriveAtFloor c).cc.get e).bits = (s.cc.get e).bits :=
  PerCorner.bits_get_set (by rfl) e

@[simp] theorem State.rechecked_bits : ((s.rechecked c).cc.get e).bits = (s.cc.get e).bits := by
  simp only [State.rechecked, State.startTest_frame]
  split <;> simp

@[simp] theorem State.trimPassed_bits (t : Trim) (resistance : Nat) :
    ((s.trimPassed c t resistance).cc.get e).bits = (s.cc.get e).bits := by
  have left (u : State) : ((u.leaveTrim c t.origin).cc.get e).bits = (u.cc.get e).bits := by
    unfold State.leaveTrim
    split <;> split <;> simp
  simp [State.trimPassed, left]

/-! ## The changes of mode (ModeOps) -/

@[simp] theorem State.armedToRun_bits : ((s.armedToRun c).cc.get e).bits = (s.cc.get e).bits := by
  simp only [State.armedToRun]
  split
  · split <;> simp
  · rfl

@[simp] theorem State.enterRun_bits : (s.enterRun.cc.get e).bits = (s.cc.get e).bits := by
  have armed (u : State) : ((corners.foldl State.armedToRun u).cc.get e).bits = (u.cc.get e).bits :=
    foldl_keeps (g := fun s => (s.cc.get e).bits) (fun u d => u.armedToRun_bits d e) corners u
  simp [State.enterRun, armed, Cc.atRun]

@[simp] theorem State.enterStarting_bits : (s.enterStarting.cc.get e).bits = (s.cc.get e).bits := by
  simp [State.enterStarting]

@[simp] theorem State.enterStandby_bits : (s.enterStandby.cc.get e).bits = (s.cc.get e).bits := by
  simp [State.enterStandby]

@[simp] theorem State.runIfChecked_bits : (s.runIfChecked.cc.get e).bits = (s.cc.get e).bits := by
  unfold State.runIfChecked
  split <;> simp

@[simp] theorem State.enterFaulted_bits (kind : FaultKind) (measured : Nat) :
    ((s.enterFaulted c kind measured).cc.get e).bits = (s.cc.get e).bits := by
  have answered (u : State) : (u.escalate.cc.get e).bits = (u.cc.get e).bits := by
    unfold State.escalate
    split <;> simp
  simp [State.enterFaulted, answered]

/-! ## The completions, the samples and the expiries (Drivers) -/

@[simp] theorem State.sample_bits (current : Nat) : ((s.sample c current).cc.get e).bits = (s.cc.get e).bits := by
  simp only [State.sample]
  split
  · simp
  · split <;> simp

@[simp] theorem State.trackingExpires_bits : ((s.trackingExpires c).cc.get e).bits = (s.cc.get e).bits := by
  simp only [State.trackingExpires]
  split <;> simp

@[simp] theorem State.checkPassed_bits (resistance : Nat) :
    ((s.checkPassed c resistance).cc.get e).bits = (s.cc.get e).bits := by
  cases mode : s.mdc.mode with
  | starting => simp [State.checkPassed, mode, State.armed]
  | run => simp [State.checkPassed, mode]
  | config | safe | standby => simp [State.checkPassed, mode]

@[simp] theorem State.checkCompletes_bits (resistance : Nat) :
    ((s.checkCompletes c resistance).cc.get e).bits = (s.cc.get e).bits := by
  unfold State.checkCompletes
  split <;> simp

@[simp] theorem State.trimCompletes_bits (t : Trim) (resistance : Nat) :
    ((s.trimCompletes c t resistance).cc.get e).bits = (s.cc.get e).bits := by
  unfold State.trimCompletes
  split <;> simp

/-! ## The odometers (Odometry) -/

@[simp] theorem State.giveMiss_bits (given : Bool) : ((s.giveMiss c given).cc.get e).bits = (s.cc.get e).bits := by
  unfold State.giveMiss
  split
  · exact PerCorner.bits_get_set (by rfl) e
  · rfl

@[simp] theorem State.takeFrontPulse_bits (t : Track) (time : Nat) :
    ((s.takeFrontPulse t time).cc.get e).bits = (s.cc.get e).bits := by
  by_cases ahead : (s.tod.get t).direction = .forward
  · simp [State.takeFrontPulse_forward ahead, State.handAdvance]
  · simp [State.takeFrontPulse_away ahead]

end Bits

/-! ## What every command leaves set -/

/-- An accrued bit of a corner is set. -/
def State.bitSet (k : Corner) (b : AccruedBit) (s : State) : Prop := ((s.cc.get k).bits.get b).isSet = true

section BitSet

variable {s t : State} {k : Corner} {b : AccruedBit}

theorem State.bitSet_of_bits (h : s.bitSet k b) (bits : (t.cc.get k).bits = (s.cc.get k).bits) : t.bitSet k b := by
  rwa [State.bitSet, bits]

/-- A write of a corner that clears no set bit of it. -/
theorem State.bitSet_setCc {c : Corner} {x : Cc} (h : s.bitSet k b)
    (stays : ((s.cc.get c).bits.get b).isSet = true → (x.bits.get b).isSet = true) : (s.setCc c x).bitSet k b := by
  by_cases same : k = c
  · subst same
    simpa [State.bitSet] using stays h
  · simpa [State.bitSet, same] using h

theorem State.bitSet_updateInRun (h : s.bitSet k b) (c : Corner) (raw : Int) : (s.updateInRun c raw).bitSet k b := by
  by_cases same : k = c
  · subst same
    obtain ⟨_, _, _, bits, _⟩ := s.updateInRun_bookkept k raw
    rw [State.bitSet, bits]
    exact Cc.accrue_isSet h _ _
  · obtain ⟨kept, _⟩ := s.updateInRun_others c raw same
    rwa [State.bitSet, kept]

theorem State.bitSet_updateOutsideRun (h : s.bitSet k b) (c : Corner) : (s.updateOutsideRun c).bitSet k b := by
  have taken : (s.setCc c { s.cc.get c with missNotice := false, previousHeight := none }).bitSet k b :=
    State.bitSet_setCc h id
  exact State.bitSet_setCc (State.bitSet_of_bits taken (by simp)) fun set => Cc.accrue_isSet set _ _

/-- The admission of a CONDITION report makes its bit REPORTED, which is set (R120). -/
theorem State.bitSet_emptyMarker (h : s.bitSet k b) (m : Marker) : (s.emptyMarker m).bitSet k b := by
  cases m with
  | condition c d =>
    refine State.bitSet_setCc h fun set => ?_
    rw [PerBit.get_set]
    split
    · rfl
    · exact set
  | fault _ | mode | lock _ | profile => exact h
  | passage =>
    simp only [State.emptyMarker]
    split <;> exact h

end BitSet

/-- The command is none of those with which the host clears bits. -/
structure Instr.ClearsNoBit (i : Instr) : Prop where
  notClear : ∀ m n, i ≠ .clearConditions m n
  notRestart : i ≠ .restart
  notReset : ∀ cause, i ≠ .fullReset cause

theorem State.bitSet_keeps (k : Corner) (b : AccruedBit) : KeepsIn Instr.ClearsNoBit (State.bitSet k b) where
  outer _ _ _ _ h := h
  resumes _ h _ _ := h
  setGroup _ _ _ _ _ _ h _ _ _ := h
  setLocks _ _ _ _ h := h
  writeVariant _ _ _ _ h _ := h
  start _ _ h _ := State.bitSet_of_bits h (by simp)
  standby _ _ h _ := State.bitSet_of_bits h (by simp)
  restart a _ _ := absurd rfl a.notRestart
  motion _ _ _ _ _ h := State.bitSet_of_bits h (by simp)
  preview _ _ _ _ _ h _ := h
  withdraw _ _ _ _ h _ _ := h
  select _ _ _ _ h _ _ _ := State.bitSet_of_bits h (by simp)
  trimAhead _ _ _ _ _ h _ _ := State.bitSet_of_bits h (by simp)
  recheck _ _ _ _ h _ _ := State.bitSet_of_bits h (by simp)
  setReporting _ _ _ _ _ enabled h := State.bitSet_setCc h fun set => Cc.report_isSet set enabled
  clear m n a := absurd rfl (a.notClear m n)
  fullReset cause a := absurd rfl (a.notReset cause)
  frontPulse _ _ _ _ h _ := State.bitSet_of_bits h (by simp)
  rearPulse _ _ _ h _ := State.bitSet_of_bits h (by simp)
  standstill _ _ _ h _ := h
  updateInRun c raw _ _ h _ := State.bitSet_updateInRun h c raw
  updateOutsideRun c _ _ _ h _ := State.bitSet_updateOutsideRun h c
  sample _ _ _ _ h := State.bitSet_of_bits h (by simp)
  trackingExpires _ _ _ h := State.bitSet_of_bits h (by simp)
  checkCompletes _ _ _ _ h _ := State.bitSet_of_bits h (by simp)
  trimCompletes _ _ _ _ _ h _ _ := State.bitSet_of_bits h (by simp)
  trimTimerExpires _ _ _ h _ := State.bitSet_of_bits h (by simp)
  silence _ _ h _ _ := h
  emptyMarker _ _ m h := State.bitSet_emptyMarker h m

/-! ## The commands that a frame can stand for -/

/-- A full reset comes from the reset input or from power-up, and no frame stands for one (R174). -/
theorem requestOf_ne_fullReset (k : RequestKind) (body : List Byte) (cause : ResetCause) :
    requestOf k body ≠ .fullReset cause := by
  cases k <;> exact Instr.noConfusion

theorem takenAs_ne_fullReset {i : Instr} {cause : ResetCause} (h : i ≠ .fullReset cause) :
    takenAs i ≠ .fullReset cause := by
  have framed {f : RawFrame} {r : Instr} (j : judgeFrame f = .wellFormed r) : r ≠ .fullReset cause := by
    obtain ⟨k, body, _, _, rfl⟩ := judgeFrame_wellFormed j
    exact requestOf_ne_fullReset k body cause
  cases i with
  | malformedFrame f | noRoom f =>
    cases j : judgeFrame f with
    | wellFormed r => simpa [takenAs, j] using framed j
    | malformed | crcError => simp [takenAs, j]
  | _ => exact h

/-- Settles O46: the bookkeeping by the equations of `Cc.accrue`, and the set bits by `State.bitSet_keeps`. -/
theorem accruedBitsStayUntilTheHostClearsThem : Obligations.AccruedBitsStayUntilTheHostClearsThem := by
  refine ⟨fun x u captured => ?_, fun i s t k b stepped set notClear notRestart notReset => ?_, BitState.isSet_iff⟩
  · intro derived newly y
    exact ⟨Cc.accrue_origin_captured captured, Cc.accrue_origin_kept captured,
      fun _ => Cc.accrue_bits_raised captured, fun _ => Cc.accrue_bits_kept captured, rfl⟩
  · exact (State.bitSet_keeps k b).exec
      ⟨notClear, notRestart, fun cause => takenAs_ne_fullReset (notReset cause)⟩ set stepped

end Sys2Proof.Machine
end

section
/-! Valve maps (chapter 07): the current of a demand along the points of a map, the class of a resistance, the temperature
estimate, and the map that each corner uses. -/

namespace Sys2Proof.Machine

/-! ## The map current (R128) -/

theorem MapPoint.interpolate_le (p q : MapPoint) (d : Nat) : p.interpolate q d ≤ p.current := Nat.sub_le _ _

/-- Between two points the interpolated current lies between theirs, where the currents do not rise. -/
theorem MapPoint.le_interpolate {p q : MapPoint} {d : Nat} (falls : q.current ≤ p.current) (before : d ≤ q.demand) :
    q.current ≤ p.interpolate q d := by
  have part : (p.current - q.current) * (d - p.demand) / (q.demand - p.demand) ≤ p.current - q.current :=
    Nat.div_le_of_le_mul (by
      rw [Nat.mul_comm]
      exact Nat.mul_le_mul_right _ (Nat.sub_le_sub_right before _))
  unfold MapPoint.interpolate
  omega

theorem pointsOrdered_cons {p q : MapPoint} {rest : List MapPoint} :
    pointsOrdered (p :: q :: rest) = true ↔
      p.demand < q.demand ∧ q.current ≤ p.current ∧ pointsOrdered (q :: rest) = true := by
  simp [pointsOrdered, and_assoc]

/-- Along a map the demands rise from its first point on. -/
theorem pointsOrdered_lt {p x : MapPoint} {rest : List MapPoint} (ordered : pointsOrdered (p :: rest) = true)
    (h : x ∈ rest) : p.demand < x.demand := by
  induction rest generalizing p with
  | nil => cases h
  | cons q rest ih =>
    obtain ⟨rises, _, tail⟩ := pointsOrdered_cons.1 ordered
    rcases List.mem_cons.1 h with rfl | later
    · exact rises
    · exact Nat.lt_trans rises (ih tail later)

/-- Neighbouring points anywhere in a map are ordered as its first two are. -/
theorem pointsOrdered_neighbours {earlier later : List MapPoint} {p q : MapPoint}
    (ordered : pointsOrdered (earlier ++ p :: q :: later) = true) : p.demand < q.demand ∧ q.current ≤ p.current := by
  induction earlier with
  | nil =>
    obtain ⟨rises, falls, _⟩ := pointsOrdered_cons.1 ordered
    exact ⟨rises, falls⟩
  | cons a earlier ih =>
    cases earlier with
    | nil => exact ih (pointsOrdered_cons.1 ordered).2.2
    | cons b earlier => exact ih (pointsOrdered_cons.1 ordered).2.2

section CurrentFrom

variable {p q : MapPoint} {rest : List MapPoint} {d : Nat}

theorem currentFrom_at (p : MapPoint) (rest : List MapPoint) : currentFrom p p.demand rest = p.current := by
  cases rest <;> simp [currentFrom]

theorem currentFrom_beyond (rises : p.demand < q.demand) (h : q.demand ≤ d) :
    currentFrom p d (q :: rest) = currentFrom q d rest := by
  rw [currentFrom, if_neg (by omega), if_neg (by omega)]

theorem currentFrom_between (after : p.demand < d) (before : d < q.demand) :
    currentFrom p d (q :: rest) = p.interpolate q d := by
  rw [currentFrom, if_neg (by omega), if_pos before]

end CurrentFrom

/-- At a point's demand the current is the point's (R128). -/
theorem currentFrom_point {p x : MapPoint} {rest : List MapPoint} (ordered : pointsOrdered (p :: rest) = true)
    (h : x ∈ p :: rest) : currentFrom p x.demand rest = x.current := by
  induction rest generalizing p with
  | nil =>
    obtain rfl := List.mem_singleton.1 h
    exact currentFrom_at x []
  | cons q rest ih =>
    rcases List.mem_cons.1 h with rfl | later
    · exact currentFrom_at _ _
    obtain ⟨rises, _, tail⟩ := pointsOrdered_cons.1 ordered
    have reached : q.demand ≤ x.demand := by
      rcases List.mem_cons.1 later with rfl | beyond
      · exact Nat.le_refl _
      · exact Nat.le_of_lt (pointsOrdered_lt tail beyond)
    rw [currentFrom_beyond rises reached]
    exact ih tail later

/-- Between two neighbouring points the current is interpolated from them (R128). -/
theorem currentFrom_neighbours {first p q : MapPoint} {rest earlier later : List MapPoint} {d : Nat}
    (ordered : pointsOrdered (first :: rest) = true) (points : first :: rest = earlier ++ p :: q :: later)
    (after : p.demand < d) (before : d < q.demand) : currentFrom first d rest = p.interpolate q d := by
  induction earlier generalizing first rest with
  | nil =>
    obtain ⟨rfl, rfl⟩ := List.cons.inj points
    exact currentFrom_between after before
  | cons a earlier ih =>
    obtain ⟨rfl, tailPoints⟩ := List.cons.inj points
    cases rest with
    | nil => simp at tailPoints
    | cons b rest =>
      obtain ⟨rises, _, tail⟩ := pointsOrdered_cons.1 ordered
      have reached : b.demand ≤ p.demand := by
        have among : p ∈ b :: rest := by simp [tailPoints]
        rcases List.mem_cons.1 among with rfl | beyond
        · exact Nat.le_refl _
        · exact Nat.le_of_lt (pointsOrdered_lt tail beyond)
      rw [currentFrom_beyond rises (by omega)]
      exact ih tail tailPoints

/-- No demand is given more than a bound on the currents of the points. -/
theorem currentFrom_le {p : MapPoint} {rest : List MapPoint} {cap : Nat} (h : ∀ x ∈ p :: rest, x.current ≤ cap)
    (d : Nat) : currentFrom p d rest ≤ cap := by
  induction rest generalizing p with
  | nil => exact h p List.mem_cons_self
  | cons q rest ih =>
    have first : p.current ≤ cap := h p List.mem_cons_self
    simp only [currentFrom]
    split
    · exact first
    · split
      · exact Nat.le_trans (p.interpolate_le q d) first
      · exact ih fun x among => h x (List.mem_cons_of_mem p among)

theorem ValveMap.passes_points {m : ValveMap} {cap : Nat} (h : m.passes cap = true) :
    pointsOrdered m.points = true ∧ ∀ p ∈ m.points, p.current ≤ cap := by
  simp only [ValveMap.passes, ValveMap.currentsAtMost, Bool.and_eq_true, List.all_eq_true, decide_eq_true_eq] at h
  obtain ⟨⟨⟨⟨⟨_, ordered⟩, currents, _⟩, _⟩, _⟩, _⟩ := h
  exact ⟨ordered, currents⟩

/-! ## The class of a resistance, and the temperature (R132, R133) -/

section Classify

variable {m : ValveMap} {r : Nat}

theorem ValveMap.classify_short (h : r < m.shortLimit) : m.classify r = .short := if_pos h

theorem ValveMap.classify_open (notShort : m.shortLimit ≤ r) (h : m.openLimit < r) :
    m.classify r = .openCircuit := by
  rw [ValveMap.classify, if_neg (Nat.not_lt.2 notShort), if_pos h]

theorem ValveMap.classify_ok (notShort : m.shortLimit ≤ r) (notOpen : r ≤ m.openLimit) : m.classify r = .ok := by
  rw [ValveMap.classify, if_neg (Nat.not_lt.2 notShort), if_neg (Nat.not_lt.2 notOpen)]

/-- Where the limits do not cross, each class is one range of resistances. -/
theorem ValveMap.classify_iff (limits : m.shortLimit ≤ m.openLimit) :
    (m.classify r = .short ↔ r < m.shortLimit) ∧ (m.classify r = .openCircuit ↔ m.openLimit < r)
      ∧ (m.classify r = .ok ↔ m.shortLimit ≤ r ∧ r ≤ m.openLimit) := by
  rcases Nat.lt_or_ge r m.shortLimit with short | notShort
  · rw [ValveMap.classify_short short]
    simp
    omega
  · rcases Nat.lt_or_ge m.openLimit r with openCoil | notOpen
    · rw [ValveMap.classify_open notShort openCoil]
      simp
      omega
    · rw [ValveMap.classify_ok notShort notOpen]
      simp
      omega

end Classify

theorem ValveMap.temperatureOf_eq (m : ValveMap) (r : Nat) :
    m.temperatureOf r =
      max (-40) (min 250 ((((r : Int) - m.coldResistance) * 100000).tdiv (393 * m.coldResistance) + 20)) := by
  simp only [ValveMap.temperatureOf]
  generalize (((r : Int) - m.coldResistance) * 100000).tdiv (393 * m.coldResistance) + 20 = t
  split
  · omega
  · split <;> omega

/-! ## The map of a corner (R127) -/

theorem State.map_set {s : State} {v : ValveMaps} (h : s.cfs.valveMaps = some v) (c : Corner) :
    s.map c = v.forCorner c := by
  simp only [State.map, h]

/-- An axle with one map gives it to both its corners, and one with two gives each corner its own. -/
theorem AxleMaps.forTrack_spec (a : AxleMaps) :
    (∀ m, a = .shared m → a.forTrack .left = m ∧ a.forTrack .right = m)
      ∧ ∀ left right, a = .separate left right → a.forTrack .left = left ∧ a.forTrack .right = right := by
  cases a with
  | shared m => simp [AxleMaps.forTrack]
  | separate l r => simp [AxleMaps.forTrack]

/-- An axle has two maps exactly where its flag is set. -/
theorem AxleMaps.separate_iff {a : AxleMaps} {flag : Bool} (h : a.maps.length = mapsOfFlag flag) :
    flag = true ↔ ∃ left right, a = .separate left right := by
  cases a with
  | shared m =>
    cases flag with
    | false => simp
    | true => simp [AxleMaps.maps, mapsOfFlag] at h
  | separate l r =>
    cases flag with
    | false => simp [AxleMaps.maps, mapsOfFlag] at h
    | true => simp

/-- Settles O50: the current along the points of a map by induction over them, the class and the estimate by their
equations, and the map of a corner by the map or maps of its axle. -/
theorem mapGivesCurrentClassAndTemperature : Obligations.MapGivesCurrentClassAndTemperature := by
  refine ⟨fun m cap passes => ?current, fun m r limits => ValveMap.classify_iff limits, ValveMap.temperatureOf_eq,
    fun s v set => ?maps, fun s g set => ?_, fun s l set => ?_⟩
  case current =>
    obtain ⟨ordered, currents⟩ := ValveMap.passes_points passes
    refine ⟨fun p among => currentFrom_point ordered among, fun earlier p q later d points after before => ?_,
      currentFrom_le currents⟩
    obtain ⟨_, falls⟩ := pointsOrdered_neighbours (points ▸ ordered)
    have current : m.current d = p.interpolate q d := currentFrom_neighbours ordered points after before
    rw [current]
    exact ⟨rfl, MapPoint.le_interpolate falls (Nat.le_of_lt before), p.interpolate_le q d⟩
  case maps =>
    obtain ⟨frontShared, frontSeparate⟩ := v.front.forTrack_spec
    obtain ⟨rearShared, rearSeparate⟩ := v.rear.forTrack_spec
    simp only [State.map_set set]
    refine ⟨frontShared, frontSeparate, rearShared, rearSeparate, fun contents => ?_⟩
    obtain ⟨maps, _⟩ := contents
    obtain ⟨g, geometry, front, rear, _⟩ := maps v set
    exact ⟨g, geometry, AxleMaps.separate_iff front, AxleMaps.separate_iff rear⟩
  · rw [State.geometry, set, Option.getD_some]
  · rw [State.limits, set, Option.getD_some]

end Sys2Proof.Machine
end

section
/-! The drivers' own operations (chapter 07): what each reads and writes of its driver, the start tests, and the entries to
DRIVE and HOLD; and TRIM_AHEAD, the current samples and the trim timer, settled by them. -/

namespace Sys2Proof.Machine

/-! ## What a write of a driver leaves to be read -/

section Reads

variable (s : State) (c d : Corner) (v : Vd)

@[simp] theorem State.setVd_map : (s.setVd c v).map d = s.map d := rfl

@[simp] theorem State.setVd_limits : (s.setVd c v).limits = s.limits := rfl

@[simp] theorem State.setVd_followedProfile : (s.setVd c v).followedProfile d = s.followedProfile d := rfl

theorem State.setVd_get : s.setVd c (s.vd.get c) = s := by
  simp [State.setVd]

theorem State.setCc_get : s.setCc c (s.cc.get c) = s := by
  simp [State.setCc]

theorem State.setVd_setCc_setVd (x : Cc) (w : Vd) :
    ((s.setVd c v).setCc d x).setVd c w = (s.setVd c w).setCc d x := by
  simp [State.setVd, State.setCc]

theorem atOrAbove_iff (temperature : Option Int) (limit : Nat) :
    atOrAbove temperature limit = true ↔ ∃ h, temperature = some h ∧ (limit : Int) ≤ h := by
  cases temperature with
  | none => simp [atOrAbove]
  | some t => simp [atOrAbove]

theorem State.isHot_setVd : (s.setVd c v).isHot c = atOrAbove v.temperature s.limits.hot := by
  simp [State.isHot]

theorem State.isWarm_setVd : (s.setVd c v).isWarm c = atOrAbove v.temperature s.limits.warm := by
  simp [State.isWarm]

/-- The interval in force by the estimate of the driver (R136). -/
theorem State.trimInterval_eq :
    s.trimInterval c =
      if ∃ h, (s.vd.get c).temperature = some h ∧ (s.limits.warm : Int) ≤ h then s.limits.trimInterval / 2
      else s.limits.trimInterval := by
  simp only [State.trimInterval, State.isWarm, atOrAbove_iff]

end Reads

/-! ## The start tests (R139 to R141) -/

/-- A driver that a trim takes from a state (R139). -/
def Vd.trimming (v : Vd) (origin : TrimOrigin) (kind : TrimKind) : Vd :=
  { v with
    state := .trim, operation := .running Config.trimTime, tracking := .stopped, trim := some { origin, kind } }

section StartTests

variable {s : State} {c : Corner}

theorem State.startTrim_eq (s : State) (c : Corner) (origin : TrimOrigin) (kind : TrimKind) :
    s.startTrim c origin kind = s.setVd c ((s.vd.get c).trimming origin kind) := rfl

theorem Vd.told_eq (v : Vd) (quiet : Bool) :
    v.told quiet =
      if v.state = .drive ∧ quiet = true ∧ (0 < v.balance ∨ 0 < v.pullIn) then
        ({ v with quiet } : Vd).trimming .drive (if 0 < v.balance then .due else .pullIn)
      else { v with quiet } := rfl

/-- The start test in DRIVE is the one that a driver makes when it is told what it has been told before. -/
theorem State.driveStartTest_told (s : State) (c : Corner) :
    s.driveStartTest c = s.setVd c ((s.vd.get c).told (s.vd.get c).quiet) := by
  rw [← State.tellQuiet_eq, State.tellQuiet]
  exact congrArg (State.driveStartTest · c) (s.setVd_get c).symm

theorem State.driveStartTest_eq (s : State) (c : Corner) :
    s.driveStartTest c =
      if (s.vd.get c).state = .drive ∧ (s.vd.get c).quiet = true
          ∧ (0 < (s.vd.get c).balance ∨ 0 < (s.vd.get c).pullIn) then
        s.setVd c ((s.vd.get c).trimming .drive (if 0 < (s.vd.get c).balance then .due else .pullIn))
      else s := by
  rw [State.driveStartTest_told, Vd.told_eq]
  split
  · rfl
  · exact s.setVd_get c

theorem State.holdStartTest_eq (s : State) (c : Corner) :
    s.holdStartTest c =
      if (s.vd.get c).state = .hold ∧ 0 < (s.vd.get c).balance then s.setVd c ((s.vd.get c).trimming .hold .due)
      else s := rfl

theorem State.startTest_drive (h : (s.vd.get c).state = .drive) : s.startTest c = s.driveStartTest c := by
  simp only [State.startTest, h]

theorem State.startTest_hold (h : (s.vd.get c).state = .hold) : s.startTest c = s.holdStartTest c := by
  simp only [State.startTest, h]

theorem State.startTest_other (notDrive : (s.vd.get c).state ≠ .drive) (notHold : (s.vd.get c).state ≠ .hold) :
    s.startTest c = s := by
  unfold State.startTest
  split
  · exact absurd ‹_› notDrive
  · exact absurd ‹_› notHold
  all_goals rfl

/-- With no trim due and none asked for, no start test finds one to start. -/
theorem State.startTest_idle (balance : (s.vd.get c).balance = 0) (pullIn : (s.vd.get c).pullIn = 0) :
    s.startTest c = s := by
  by_cases drive : (s.vd.get c).state = .drive
  · rw [State.startTest_drive drive, State.driveStartTest_eq, if_neg (by simp [balance, pullIn])]
  by_cases hold : (s.vd.get c).state = .hold
  · rw [State.startTest_hold hold, State.holdStartTest_eq, if_neg (by simp [balance])]
  exact State.startTest_other drive hold

/-- The driver that the start test of a trim timer expiry leaves (R137, R139 to R141). -/
def Vd.expired (v : Vd) : Vd :=
  if v.state = .drive ∧ (v.balance = 8 ∨ (v.quiet = true ∧ 0 < v.balance)) then v.trimming .drive .due
  else if v.state = .drive ∧ v.quiet = true ∧ 0 < v.pullIn then v.trimming .drive .pullIn
  else if v.state = .hold ∧ 0 < v.balance then v.trimming .hold .due
  else v

theorem State.expiryStartTest_eq (s : State) (c : Corner) :
    s.expiryStartTest c = s.setVd c (s.vd.get c).expired := by
  unfold State.expiryStartTest Vd.expired
  by_cases drive : (s.vd.get c).state = .drive
  · have notHold : (s.vd.get c).state ≠ .hold := by simp [drive]
    rw [State.startTest_drive drive, State.driveStartTest_eq]
    by_cases full : (s.vd.get c).balance = 8
    · simp [drive, full, State.startTrim_eq]
    by_cases quiet : (s.vd.get c).quiet = true
    · by_cases due : 0 < (s.vd.get c).balance
      · simp [drive, full, quiet, due]
      · by_cases asked : 0 < (s.vd.get c).pullIn
        · simp [drive, full, quiet, due, asked]
        · simp [drive, full, quiet, due, asked, State.setVd_get]
    · simp [drive, full, quiet, State.setVd_get]
  · by_cases hold : (s.vd.get c).state = .hold
    · rw [State.startTest_hold hold, State.holdStartTest_eq]
      by_cases due : 0 < (s.vd.get c).balance
      · simp [hold, due]
      · simp [hold, due, State.setVd_get]
    · rw [State.startTest_other drive hold]
      simp [drive, hold, State.setVd_get]

end StartTests

/-! ## TRIM_AHEAD (R142) -/

/-- A delivered TRIM_AHEAD is judged, and its reply placed. -/
theorem exec_trimAhead {s : State} (h : s.delivers) (corner count : Byte) :
    exec (.trimAhead corner count) s =
      .next ((judgeTrimAhead corner count s.delivered).1.place
        (.reply (judgeTrimAhead corner count s.delivered).2)) :=
  congrArg Host.Outcome.next (State.takeRequest_delivers h (judgeTrimAhead corner count))

section JudgeTrimAhead

variable {s : State} {corner count : Byte} {c : Corner}

theorem judgeTrimAhead_noCorner (h : cornerOf corner = none) :
    judgeTrimAhead corner count s = (s, .trimAhead (if s.mdc.mode = .run then .range else .mode) corner count 0 0) := by
  simp only [judgeTrimAhead, h, ne_eq, ite_not]

theorem judgeTrimAhead_notRun (h : cornerOf corner = some c) (notRun : s.mdc.mode ≠ .run) :
    judgeTrimAhead corner count s = (s, s.trimAheadReply .mode corner count c) := by
  simp only [judgeTrimAhead, h, if_pos notRun]

theorem judgeTrimAhead_refuses (h : cornerOf corner = some c) (run : s.mdc.mode = .run) {code : ReplyCode}
    (finding : s.trimAheadFinding c count = code) (refused : code ≠ .ok) :
    judgeTrimAhead corner count s = (s, s.trimAheadReply code corner count c) := by
  simp only [judgeTrimAhead, h, run, finding, if_neg refused, ne_eq, not_true_eq_false, if_false]

theorem judgeTrimAhead_accepts (h : cornerOf corner = some c) (run : s.mdc.mode = .run)
    (finding : s.trimAheadFinding c count = .ok) :
    judgeTrimAhead corner count s =
      (s.pullAhead c count.toNat, (s.pullAhead c count.toNat).trimAheadReply .ok corner count c) := by
  simp only [judgeTrimAhead, h, run, finding, if_true, ne_eq, not_true_eq_false, if_false]

/-- The findings on count, state and balance, in the order of R142. -/
theorem State.trimAheadFinding_eq (s : State) (c : Corner) (count : Byte) :
    s.trimAheadFinding c count =
      if count.toNat = 0 ∨ 4 < count.toNat then .range
      else if (s.vd.get c).state = .drive then
        if -4 ≤ (s.vd.get c).balance - count.toNat then .ok else .range
      else .mode := by
  unfold State.trimAheadFinding
  simp only [Nat.lt_one_iff, ne_eq, ite_not, ← Int.not_le]

end JudgeTrimAhead

/-- An accepted TRIM_AHEAD: the driver holds the count, and starts a trim if it is quiet. -/
theorem State.pullAhead_eq (s : State) (c : Corner) (count : Nat) :
    s.pullAhead c count = s.setVd c (({ s.vd.get c with pullIn := count } : Vd).told (s.vd.get c).quiet) := by
  rw [State.pullAhead, State.driveStartTest_told, State.setVd_setVd, State.setVd_vd, PerCorner.get_set_same]

@[simp] theorem Vd.told_trims (v : Vd) (quiet : Bool) :
    (v.told quiet).balance = v.balance ∧ (v.told quiet).pullIn = v.pullIn := by
  unfold Vd.told
  split <;> exact ⟨rfl, rfl⟩

/-- A driver in DRIVE that has been asked for pull-ins starts a trim exactly when it is told that it is quiet. -/
theorem Vd.told_asked {v : Vd} (drive : v.state = .drive) (asked : 0 < v.pullIn) (quiet : Bool) :
    v.told quiet =
      if quiet = true then
        ({ v with quiet } : Vd).trimming .drive (if 0 < v.balance then .due else .pullIn)
      else { v with quiet } := by
  simp only [Vd.told_eq, drive, asked, or_true, and_true, true_and]

/-- Settles O51: the judgement's case by the finding, and the trim that an accepted one starts. -/
theorem trimAheadAsksForPullIns : Obligations.TrimAheadAsksForPullIns := by
  intro s corner count delivers
  have mode : s.delivered.mdc.mode = s.mdc.mode := by simp
  have vd : s.delivered.vd = s.vd := by simp
  rw [exec_trimAhead delivers, ← mode]
  refine ⟨fun outside => by rw [judgeTrimAhead_noCorner outside], fun c named => ?_⟩
  intro v refuse
  have driver : s.delivered.vd.get c = v := by rw [vd]
  have finding := s.delivered.trimAheadFinding_eq c count
  rw [driver] at finding
  have refused {code : ReplyCode} :
      s.delivered.place (.reply (s.delivered.trimAheadReply code corner count c)) = refuse code := by
    rw [State.trimAheadReply, driver]
  refine ⟨fun notRun => ?_, fun run => ⟨fun out => ?_, fun atLeast atMost => ?_⟩⟩
  · rw [judgeTrimAhead_notRun named notRun, refused]
  · rw [if_pos out] at finding
    rw [judgeTrimAhead_refuses named run finding (by decide), refused]
  rw [if_neg (by omega)] at finding
  refine ⟨fun notDrive => ?_, fun drive low => ?_, fun drive enough => ?_⟩
  · rw [if_neg notDrive] at finding
    rw [judgeTrimAhead_refuses named run finding (by decide), refused]
  · rw [if_pos drive, if_neg (by omega)] at finding
    rw [judgeTrimAhead_refuses named run finding (by decide), refused]
  · rw [if_pos drive, if_pos enough] at finding
    rw [judgeTrimAhead_accepts named run finding, State.pullAhead_eq, driver]
    simp only [State.trimAheadReply, State.setVd_vd, PerCorner.get_set_same, Vd.told_trims]
    rw [Vd.told_asked (v := { v with pullIn := count.toNat }) drive atLeast]
    rfl

/-! ## CURRENT_SAMPLE and TRACKING_TIMER_EXPIRY (R147, R148) -/

theorem DriverState.watched_iff (d : DriverState) :
    d.watched = true ↔ d = .checking ∨ d = .drive ∨ d = .trim ∨ d = .hold := by
  cases d <;> simp [DriverState.watched]

theorem DriverState.tracked_iff (d : DriverState) : d.tracked = true ↔ d = .drive ∨ d = .hold := by
  cases d <;> simp [DriverState.tracked]

theorem currentReading_eq (current : Nat) : currentReading current = min 2500 current := by
  unfold currentReading Config.maxCurrentReading
  rcases Nat.lt_or_ge current 2500 with below | above
  · rw [if_pos below, Nat.min_eq_right (Nat.le_of_lt below)]
  · rw [if_neg (Nat.not_lt.2 above), Nat.min_eq_left above]

theorem outsideBand_iff {band setpoint reading : Nat} :
    outsideBand band setpoint reading = true ↔ setpoint + band < reading ∨ reading + band < setpoint := by
  simp [outsideBand]

section Sample

variable {s : State} {c : Corner} {current : Nat}

theorem State.sample_overcurrent (watched : (s.vd.get c).state.watched = true)
    (above : s.limits.overcurrent < currentReading current) :
    s.sample c current = (s.setVd c { s.vd.get c with measured := currentReading current }).enterFaulted c .overcurrent
      (currentReading current) := if_pos ⟨watched, above⟩

theorem State.sample_untracked (untracked : ¬(s.vd.get c).state.tracked = true)
    (within : ¬((s.vd.get c).state.watched = true ∧ s.limits.overcurrent < currentReading current)) :
    s.sample c current = s.setVd c { s.vd.get c with measured := currentReading current } :=
  (if_neg within).trans (if_neg untracked)

theorem State.sample_tracked (tracked : (s.vd.get c).state.tracked = true)
    (within : currentReading current ≤ s.limits.overcurrent) :
    s.sample c current = s.setVd c
      (({ s.vd.get c with measured := currentReading current } : Vd).judgeTracking s.limits (currentReading current)) := by
  rw [State.sample, if_neg fun both => absurd both.2 (Nat.not_lt.2 within), if_pos tracked, State.setVd_setVd,
    State.setVd_vd, PerCorner.get_set_same]

end Sample

/-- Settles O53: the three ends of a sample, by the driver's state, the overcurrent threshold and the band. -/
theorem currentSamplesAreJudged : Obligations.CurrentSamplesAreJudged := by
  intro s c current free v l reading kept watched tracked outside
  have sampled : exec (.currentSample c current) s = .next (s.sample c current) :=
    congrArg Host.Outcome.next (State.unlessHeld_free free _)
  have watchedIff : v.state.watched = true ↔ watched := v.state.watched_iff
  have trackedIff : v.state.tracked = true ↔ tracked := v.state.tracked_iff
  have read : currentReading current = reading := currentReading_eq current
  rw [sampled]
  refine ⟨fun w above => ?_, fun untracked within => ?_, fun t within out => ?_, fun t within inside => ?_,
    fun t runs => ?_⟩
  · rw [State.sample_overcurrent (watchedIff.2 w) (read ▸ above), read]
  · rw [State.sample_untracked (mt trackedIff.1 untracked), read]
    rintro ⟨w, above⟩
    rw [read] at above
    exact within.elim (fun unwatched => unwatched (watchedIff.1 w)) (Nat.not_le.2 above)
  · rw [State.sample_tracked (trackedIff.2 t) (read ▸ within), read, Vd.judgeTracking, if_pos (outsideBand_iff.2 out)]
  · rw [State.sample_tracked (trackedIff.2 t) (read ▸ within), read, Vd.judgeTracking,
      if_neg (mt outsideBand_iff.1 inside)]
  · refine congrArg Host.Outcome.next ((State.unlessHeld_free free _).trans ?_)
    exact if_pos ⟨runs, trackedIff.2 t⟩

/-! ## TRIM_TIMER_EXPIRY (R136, R137) -/

theorem State.trimTimerExpires_eq (s : State) (c : Corner) :
    s.trimTimerExpires c = s.setVd c
      ({ s.vd.get c with balance := (s.vd.get c).balance + 1, trimTimer := .running (s.trimInterval c) } : Vd).expired := by
  rw [State.trimTimerExpires, State.expiryStartTest_eq, State.setVd_setVd, State.setVd_vd, PerCorner.get_set_same]

/-- Settles O58: the interval in force by `State.trimInterval_eq`, the start test by `Vd.expired`. -/
theorem trimTimerExpiryRaisesTheBalance : Obligations.TrimTimerExpiryRaisesTheBalance := by
  intro s c limit free runs v warm raised trims
  have runs : (s.vd.get c).trimTimer ≠ .stopped := by simp [runs]
  refine congrArg Host.Outcome.next ((State.unlessHeld_free free _).trans ((if_neg runs).trans ?_))
  rw [State.trimTimerExpires_eq, State.trimInterval_eq]
  rfl

end Sys2Proof.Machine
end

section
/-! The completions of a check in RUN and of a trim (chapter 07): the entries to DRIVE and HOLD as they write a driver, and
the class of the resistance that decides between a fault and an entry. -/

namespace Sys2Proof.Machine

/-! ## The driver that each entry writes (R130, R133, R135, R145) -/

/-- A driver with new estimates (R132, R133). -/
def Vd.estimated (v : Vd) (m : ValveMap) (resistance : Nat) : Vd :=
  { v with resistance := some resistance, temperature := some (m.temperatureOf resistance) }

/-- A driver with its trim schedule just started (R134, R135). -/
def Vd.scheduled (v : Vd) (interval : Nat) : Vd := { v with balance := 0, pullIn := 0, trimTimer := .running interval }

/-- A driver as an entry to DRIVE at a demand leaves it (R130). -/
def Vd.driving (v : Vd) (m : ValveMap) (demand : Nat) : Vd :=
  { v with
    state := .drive, setpoint := m.current demand, heldDemand := demand, operation := .stopped, trim := none
    tracking := .stopped }

/-- A driver as entry to HOLD leaves it (R130, R143). -/
def Vd.holding (v : Vd) (m : ValveMap) : Vd :=
  { v with
    state := .hold, setpoint := m.holdCurrent, operation := .stopped, trim := none, pullIn := 0, tracking := .stopped }

section Writes

variable (s : State) (c : Corner) (v : Vd)

theorem State.setEstimates_eq (resistance : Nat) :
    s.setEstimates c resistance = s.setVd c ((s.vd.get c).estimated (s.map c) resistance) := rfl

theorem State.startTrimSchedule_setVd :
    (s.setVd c v).startTrimSchedule c = s.setVd c (v.scheduled ((s.setVd c v).trimInterval c)) := by
  simp only [State.startTrimSchedule, State.setVd_setVd, State.setVd_vd, PerCorner.get_set_same, Vd.scheduled]

theorem State.enterDriveAtFloor_setVd :
    (s.setVd c v).enterDriveAtFloor c =
      (s.setVd c (v.driving (s.map c) (s.followedProfile c).floor)).setCc c
        { s.cc.get c with lastDemand := (s.followedProfile c).floor } := by
  simp only [State.enterDriveAtFloor, State.setVd_setVd, State.setVd_vd, PerCorner.get_set_same, State.setVd_map,
    State.setVd_followedProfile, State.setVd_cc, Vd.driving]

theorem State.enterDriveKept_setVd :
    (s.setVd c v).enterDriveKept c = s.setVd c (v.driving (s.map c) v.heldDemand) := by
  simp only [State.enterDriveKept, State.setVd_setVd, State.setVd_vd, PerCorner.get_set_same, State.setVd_map,
    Vd.driving]

theorem State.enterHold_setVd :
    (s.setVd c v).enterHold c = (s.setVd c (v.holding (s.map c))).driverLeft c v.state := by
  simp only [State.enterHold, State.setVd_setVd, State.setVd_vd, PerCorner.get_set_same, State.setVd_map, Vd.holding]

end Writes

/-! ## Completions: an OK result, or a fault (R132) -/

section Completes

variable {s : State} {c : Corner} {resistance : Nat}

theorem State.checkCompletes_short (h : resistance < (s.map c).shortLimit) :
    s.checkCompletes c resistance = s.enterFaulted c .shortCoil resistance := by
  simp only [State.checkCompletes, ValveMap.classify_short h]

theorem State.checkCompletes_open (notShort : (s.map c).shortLimit ≤ resistance)
    (h : (s.map c).openLimit < resistance) :
    s.checkCompletes c resistance = s.enterFaulted c .openCoil resistance := by
  simp only [State.checkCompletes, ValveMap.classify_open notShort h]

theorem State.checkCompletes_ok (notShort : (s.map c).shortLimit ≤ resistance)
    (notOpen : resistance ≤ (s.map c).openLimit) : s.checkCompletes c resistance = s.checkPassed c resistance := by
  simp only [State.checkCompletes, ValveMap.classify_ok notShort notOpen]

theorem State.trimCompletes_short (h : resistance < (s.map c).shortLimit) (t : Trim) :
    s.trimCompletes c t resistance = s.enterFaulted c .shortCoil resistance := by
  simp only [State.trimCompletes, ValveMap.classify_short h]

theorem State.trimCompletes_open (notShort : (s.map c).shortLimit ≤ resistance)
    (h : (s.map c).openLimit < resistance) (t : Trim) :
    s.trimCompletes c t resistance = s.enterFaulted c .openCoil resistance := by
  simp only [State.trimCompletes, ValveMap.classify_open notShort h]

theorem State.trimCompletes_ok (notShort : (s.map c).shortLimit ≤ resistance)
    (notOpen : resistance ≤ (s.map c).openLimit) (t : Trim) :
    s.trimCompletes c t resistance = s.trimPassed c t resistance := by
  simp only [State.trimCompletes, ValveMap.classify_ok notShort notOpen]

end Completes

/-- The completion of a check, while the reset input is not held. -/
theorem exec_checkCompletion {s : State} {c : Corner} (free : s.resetHeld = false)
    (checking : (s.vd.get c).state = .checking) (r : Fin 10000) :
    exec (.checkCompletion c r) s = .next (s.checkCompletes c r.val) :=
  congrArg Host.Outcome.next ((State.unlessHeld_free free _).trans (if_pos checking))

/-- The completion of a trim, while the reset input is not held. -/
theorem exec_trimCompletion {s : State} {c : Corner} {trim : Trim} (free : s.resetHeld = false)
    (trims : (s.vd.get c).state = .trim) (held : (s.vd.get c).trim = some trim) (r : Fin 10000) :
    exec (.trimCompletion c r) s = .next (s.trimCompletes c trim r.val) := by
  refine congrArg Host.Outcome.next ((State.unlessHeld_free free _).trans ?_)
  simp only [Vd.trimInProgress, trims, held, if_true]

/-! ## A check that passes in RUN (R134, R165) -/

/-- A driver that leaves no DRIVE and no TRIM makes no corner switch (R84). -/
theorem State.driverLeft_undriven {s : State} {c : Corner} {former : DriverState} (notDrive : former ≠ .drive)
    (notTrim : former ≠ .trim) : s.driverLeft c former = s :=
  State.driverLeft_keeps fun ⟨_, driven, _⟩ => driven.elim notDrive notTrim

section Rechecked

variable {s : State} {c : Corner} {v : Vd}

theorem State.rechecked_hot (checking : v.state = .checking) (hot : atOrAbove v.temperature s.limits.hot = true) :
    (s.setVd c v).rechecked c =
      s.setVd c ((v.scheduled ((s.setVd c v).trimInterval c)).holding (s.map c)) := by
  have isHot : (s.setVd c (v.scheduled ((s.setVd c v).trimInterval c))).isHot c = true := by
    rw [State.isHot_setVd]
    exact hot
  rw [State.rechecked, State.startTrimSchedule_setVd, if_pos isHot, State.enterHold_setVd,
    State.driverLeft_undriven (by simp [Vd.scheduled, checking]) (by simp [Vd.scheduled, checking]),
    State.startTest_idle (by simp [Vd.holding, Vd.scheduled]) (by simp [Vd.holding])]

theorem State.rechecked_cool (cool : ¬atOrAbove v.temperature s.limits.hot = true) :
    (s.setVd c v).rechecked c =
      (s.setVd c ((v.scheduled ((s.setVd c v).trimInterval c)).driving (s.map c) (s.followedProfile c).floor)).setCc c
        { s.cc.get c with lastDemand := (s.followedProfile c).floor } := by
  have isCool : ¬(s.setVd c (v.scheduled ((s.setVd c v).trimInterval c))).isHot c = true := by
    rw [State.isHot_setVd]
    exact cool
  rw [State.rechecked, State.startTrimSchedule_setVd, if_neg isCool, State.enterDriveAtFloor_setVd,
    State.startTest_idle (by simp [Vd.driving, Vd.scheduled]) (by simp [Vd.driving, Vd.scheduled])]

end Rechecked

theorem State.checkPassed_run {s : State} (run : s.mdc.mode = .run) (c : Corner) (resistance : Nat) :
    s.checkPassed c resistance = (s.setEstimates c resistance).rechecked c := by
  simp only [State.checkPassed, run]

theorem State.checkPassed_starting {s : State} (starting : s.mdc.mode = .starting) (c : Corner) (resistance : Nat) :
    s.checkPassed c resistance = (s.setEstimates c resistance).armed c := by
  simp only [State.checkPassed, starting]

/-- A new estimate is at or above a limit. -/
theorem Vd.estimated_atOrAbove (v : Vd) (m : ValveMap) (resistance limit : Nat) :
    atOrAbove (v.estimated m resistance).temperature limit = true ↔ (limit : Int) ≤ m.temperatureOf resistance := by
  simp [Vd.estimated, atOrAbove]

theorem State.trimInterval_estimated (s : State) (c : Corner) (v : Vd) (m : ValveMap) (resistance : Nat) :
    (s.setVd c (v.estimated m resistance)).trimInterval c =
      if (s.limits.warm : Int) ≤ m.temperatureOf resistance then s.limits.trimInterval / 2
      else s.limits.trimInterval := by
  simp only [State.trimInterval, State.isWarm_setVd, Vd.estimated_atOrAbove, State.setVd_limits]

/-- Settles O56: the class of the resistance, and for an OK result HOLD or DRIVE by the new estimate. -/
theorem recheckEndsInDriveOrHold : Obligations.RecheckEndsInDriveOrHold := by
  intro s c r free run checking m v temperature floor ready
  rw [exec_checkCompletion free checking]
  refine ⟨fun short => ?_, fun notShort openCoil => ?_, fun notShort notOpen => ?_⟩
  · rw [State.checkCompletes_short short]
  · rw [State.checkCompletes_open notShort openCoil]
  have estimated : (v.estimated m r.val).state = .checking := checking
  have interval := s.trimInterval_estimated c v m r.val
  rw [State.checkCompletes_ok notShort notOpen, State.checkPassed_run run, State.setEstimates_eq]
  refine ⟨fun hot => ?_, fun cool => ?_⟩
  · rw [State.rechecked_hot estimated ((v.estimated_atOrAbove m _ _).2 hot), interval]
    rfl
  · rw [State.rechecked_cool (mt (v.estimated_atOrAbove m _ _).1 (Int.not_le.2 cool)), interval]
    rfl

/-! ## A trim that passes (R145, R146) -/

theorem Vd.trimmed_eq (v : Vd) (kind : TrimKind) :
    v.trimmed kind =
      { v with balance := v.balance - 1, pullIn := if kind = .pullIn then v.pullIn - 1 else v.pullIn } := by
  cases kind <;> rfl

section TrimPassed

variable {s : State} {c : Corner} {trim : Trim} {resistance : Nat}

/-- The estimate that ends a trim in HOLD: hot, or warm after a trim from HOLD (R145). -/
abbrev State.trimEndsInHold (s : State) (c : Corner) (trim : Trim) (resistance : Nat) : Prop :=
  (trim.origin = .drive ∧ (s.limits.hot : Int) ≤ (s.map c).temperatureOf resistance)
    ∨ (trim.origin = .hold ∧ (s.limits.warm : Int) ≤ (s.map c).temperatureOf resistance)

/-- The driver of a trim that passed, before it leaves TRIM: the new estimates, and the balance fallen (R145). -/
def State.vdTrimmed (s : State) (c : Corner) (trim : Trim) (resistance : Nat) : Vd :=
  ((s.vd.get c).estimated (s.map c) resistance).trimmed trim.kind

theorem State.trimPassed_eq (s : State) (c : Corner) (trim : Trim) (resistance : Nat) :
    s.trimPassed c trim resistance =
      ((s.setVd c (s.vdTrimmed c trim resistance)).leaveTrim c trim.origin).startTest c := by
  simp only [State.trimPassed, State.setEstimates_eq, State.setVd_setVd, State.setVd_vd, PerCorner.get_set_same]
  rfl

theorem State.vdTrimmed_atOrAbove (s : State) (c : Corner) (trim : Trim) (resistance limit : Nat) :
    atOrAbove (s.vdTrimmed c trim resistance).temperature limit = true ↔
      (limit : Int) ≤ (s.map c).temperatureOf resistance :=
  Vd.estimated_atOrAbove (s.vd.get c) (s.map c) resistance limit

/-- A trim from DRIVE ends in DRIVE at the held demand, while the driver is not hot. -/
theorem State.trimPassed_kept (origin : trim.origin = .drive)
    (cool : (s.map c).temperatureOf resistance < s.limits.hot) :
    s.trimPassed c trim resistance =
      (s.setVd c ((s.vdTrimmed c trim resistance).driving (s.map c) (s.vd.get c).heldDemand)).driveStartTest c := by
  have isCool : ¬(s.setVd c (s.vdTrimmed c trim resistance)).isHot c = true := by
    rw [State.isHot_setVd, State.vdTrimmed_atOrAbove]
    exact Int.not_le.2 cool
  rw [State.trimPassed_eq, origin, State.leaveTrim, if_neg isCool, State.enterDriveKept_setVd,
    State.startTest_drive (by simp [Vd.driving])]
  rfl

/-- A trim from HOLD ends in DRIVE at the floor of the profile, once the driver is not warm. -/
theorem State.trimPassed_floor (origin : trim.origin = .hold)
    (cool : (s.map c).temperatureOf resistance < s.limits.warm) :
    s.trimPassed c trim resistance =
      ((s.setVd c ((s.vdTrimmed c trim resistance).driving (s.map c) (s.followedProfile c).floor)).setCc c
        { s.cc.get c with lastDemand := (s.followedProfile c).floor }).driveStartTest c := by
  have isCool : ¬(s.setVd c (s.vdTrimmed c trim resistance)).isWarm c = true := by
    rw [State.isWarm_setVd, State.vdTrimmed_atOrAbove]
    exact Int.not_le.2 cool
  rw [State.trimPassed_eq, origin, State.leaveTrim, if_neg isCool, State.enterDriveAtFloor_setVd,
    State.startTest_drive (by simp [Vd.driving])]

/-- A trim that ends in HOLD: its corner may switch (R84), and the driver makes the start test of HOLD. -/
theorem State.trimPassed_hold (trims : (s.vd.get c).state = .trim) (ends : s.trimEndsInHold c trim resistance) :
    s.trimPassed c trim resistance =
      ((s.setVd c ((s.vdTrimmed c trim resistance).holding (s.map c))).driverLeft c .trim).holdStartTest c := by
  have left : (s.setVd c (s.vdTrimmed c trim resistance)).leaveTrim c trim.origin =
      (s.setVd c (s.vdTrimmed c trim resistance)).enterHold c := by
    rcases ends with ⟨origin, hot⟩ | ⟨origin, warm⟩
    · rw [origin]
      refine if_pos ?_
      rw [State.isHot_setVd]
      exact (s.vdTrimmed_atOrAbove c trim resistance _).2 hot
    · rw [origin]
      refine if_pos ?_
      rw [State.isWarm_setVd]
      exact (s.vdTrimmed_atOrAbove c trim resistance _).2 warm
  have former : (s.vdTrimmed c trim resistance).state = .trim := by
    rw [State.vdTrimmed, Vd.trimmed_eq]
    exact trims
  rw [State.trimPassed_eq, left, State.enterHold_setVd, former, State.startTest_hold (by simp [Vd.holding])]

end TrimPassed

/-- A driver written as it has left TRIM in RUN: its corner makes the switch that it has to make and keeps its other
items, and everything else is as it was (R84, R146). -/
theorem State.leftTrim_spec {s : State} (run : s.mdc.mode = .run) (c : Corner) (w : Vd) :
    let t := (s.setVd c w).driverLeft c .trim
    let switches := ∃ p, s.cfs.pendingProfile = some p ∧ (s.cc.get c).followed ≠ p
    t.vd = s.vd.set c w
      ∧ (switches → s.hasSwitched t c ∧ t.cc.get c = { s.cc.get c with
          followed := (t.cc.get c).followed, switchReference := (t.cc.get c).switchReference
          switchPosition := (t.cc.get c).switchPosition })
      ∧ (¬switches → t = s.setVd c (t.vd.get c))
      ∧ (∀ e, e ≠ c → t.cc.get e = s.cc.get e) ∧ t.mdc = s.mdc ∧ t.tod = s.tod ∧ t.pvs = s.pvs ∧ t.lif = s.lif := by
  intro t switches
  refine ⟨by simp [t], fun switch => ?_, fun still => ?_, fun e other => ?_, by simp [t], by simp [t], by simp [t],
    by simp [t]⟩
  · obtain ⟨p, pending, _⟩ := id switch
    obtain ⟨switched, cc⟩ := State.switchCorner_spec (s := s.setVd c w) (c := c) pending
    have made : t = (s.setVd c w).switchCorner c := State.driverLeft_switches ⟨run, .inr rfl, switch⟩
    rw [made]
    exact ⟨switched, by simp [cc]⟩
  · have kept : t = s.setVd c w := State.driverLeft_keeps fun ⟨_, _, switch⟩ => still switch
    rw [kept, State.setVd_vd, PerCorner.get_set_same]
  · obtain ⟨_, _, _, cc⟩ := (s.setVd c w).driverLeft_cc c .trim
    rw [cc, PerCorner.get_set_ne other]
    rfl

/-- Settles O57: the class of the resistance, and for an OK result the state by origin and new estimate; the switch at
the entry to HOLD is `State.leftTrim_spec`. -/
theorem trimCompletionLeavesTrim : Obligations.TrimCompletionLeavesTrim := by
  intro s c r trim free run trims held m v temperature floor switches done
  have written : s.vdTrimmed c trim r.val =
      { done with operation := v.operation, trim := v.trim, tracking := v.tracking } := by
    rw [State.vdTrimmed, Vd.trimmed_eq]
    rfl
  rw [exec_trimCompletion free trims held]
  refine ⟨fun short => ?_, fun notShort openCoil => ?_, fun notShort notOpen => ?_, fun u =>
    ⟨u.driveStartTest_eq c, u.holdStartTest_eq c⟩⟩
  · rw [State.trimCompletes_short short]
  · rw [State.trimCompletes_open notShort openCoil]
  rw [State.trimCompletes_ok notShort notOpen]
  refine ⟨fun origin cool => ?_, fun origin cool => ?_, fun ends => ?_⟩
  · rw [State.trimPassed_kept origin cool, written]
    rfl
  · rw [State.trimPassed_floor origin cool, written]
    rfl
  have passed : s.trimPassed c trim r.val =
      ((s.setVd c { done with state := .hold, setpoint := m.holdCurrent, pullIn := 0 }).driverLeft c
        .trim).holdStartTest c := by
    rw [State.trimPassed_hold trims ends, written]
    rfl
  exact ⟨_, congrArg Host.Outcome.next passed, State.leftTrim_spec run c _⟩

end Sys2Proof.Machine
end

section
/-! Entry to RUN (chapters 07 and 09) where no switch is pending: every corner and every driver that it leaves; and the
ends of the START checks that bring it about. -/

namespace Sys2Proof.Machine

/-! ## A driver that enters RUN from ARMED (R109, R135) -/

/-- The driver of a corner as it enters DRIVE from ARMED, its trim schedule just started. -/
def State.driverEntered (s : State) (c : Corner) : Vd :=
  ((s.vd.get c).scheduled (s.trimInterval c)).driving (s.map c) (s.followedProfile c).floor

/-- The driver of a corner after it has entered DRIVE, and HOLD if it is hot, from ARMED. -/
def State.driverToRun (s : State) (c : Corner) : Vd :=
  if (s.vd.get c).state = .armed then
    (if s.isHot c then (s.driverEntered c).holding (s.map c) else s.driverEntered c)
  else s.vd.get c

/-- The corner of a driver that has entered RUN from ARMED. -/
def State.cornerToRun (s : State) (c : Corner) : Cc :=
  if (s.vd.get c).state = .armed then { s.cc.get c with lastDemand := (s.followedProfile c).floor } else s.cc.get c

theorem State.setCc_isHot (s : State) (c d : Corner) (x : Cc) : (s.setCc d x).isHot c = s.isHot c := rfl

/-- Entry to HOLD with no switch pending writes the driver alone. -/
theorem State.enterHold_idle {s : State} (idle : s.cfs.pendingProfile = none) (c : Corner) :
    s.enterHold c = s.setVd c ((s.vd.get c).holding (s.map c)) :=
  State.driverLeft_idle (s := s.setVd c ((s.vd.get c).holding (s.map c))) idle

theorem State.armedToRun_eq {s : State} (idle : s.cfs.pendingProfile = none) (c : Corner) :
    s.armedToRun c = (s.setVd c (s.driverToRun c)).setCc c (s.cornerToRun c) := by
  by_cases armed : (s.vd.get c).state = .armed
  · have drives : (s.startTrimSchedule c).enterDriveAtFloor c =
        (s.setVd c (s.driverEntered c)).setCc c (s.cornerToRun c) := by
      rw [State.cornerToRun, if_pos armed]
      exact State.enterDriveAtFloor_setVd s c ((s.vd.get c).scheduled (s.trimInterval c))
    have hotness : ((s.setVd c (s.driverEntered c)).setCc c (s.cornerToRun c)).isHot c = s.isHot c := by
      rw [State.setCc_isHot, State.isHot_setVd]
      rfl
    rw [State.armedToRun, if_pos armed, drives, State.driverToRun, if_pos armed]
    simp only [hotness]
    by_cases hot : s.isHot c = true
    · rw [if_pos hot, if_pos hot, State.enterHold_idle (by exact idle), State.setVd_setCc_setVd]
      simp only [State.setCc_vd, State.setVd_vd, PerCorner.get_set_same]
      rfl
    · rw [if_neg hot, if_neg hot]
  · have toRun : s.driverToRun c = s.vd.get c := if_neg armed
    have corner : s.cornerToRun c = s.cc.get c := if_neg armed
    rw [State.armedToRun_notArmed armed, toRun, corner, State.setVd_get, State.setCc_get]

/-! ## Every corner and every driver in turn -/

/-- Corner after corner written together with its driver, with values that no other corner's write bears on: every
corner and every driver is written. -/
theorem foldl_corners_cc_vd {s : State} {f : State → Corner → State} {g : Corner → Cc} {k : Corner → Vd}
    (writes : ∀ (m : PerCorner Cc) (w : PerCorner Vd) (c : Corner), m.get c = s.cc.get c → w.get c = s.vd.get c →
      f { s with cc := m, vd := w } c = { s with cc := m.set c (g c), vd := w.set c (k c) }) :
    corners.foldl f s = { s with cc := PerCorner.of g, vd := PerCorner.of k } := by
  have one : f s .fl = { s with cc := s.cc.set .fl (g .fl), vd := s.vd.set .fl (k .fl) } :=
    writes s.cc s.vd .fl rfl rfl
  have two := writes (s.cc.set .fl (g .fl)) (s.vd.set .fl (k .fl)) .fr rfl rfl
  have three := writes ((s.cc.set .fl (g .fl)).set .fr (g .fr)) ((s.vd.set .fl (k .fl)).set .fr (k .fr)) .rl rfl rfl
  have four := writes (((s.cc.set .fl (g .fl)).set .fr (g .fr)).set .rl (g .rl))
    (((s.vd.set .fl (k .fl)).set .fr (k .fr)).set .rl (k .rl)) .rr rfl rfl
  simp only [corners, List.foldl_cons, List.foldl_nil, one, two, three, four]
  rfl

theorem State.foldl_armedToRun_eq {s : State} (idle : s.cfs.pendingProfile = none) :
    corners.foldl State.armedToRun s =
      { s with cc := PerCorner.of s.cornerToRun, vd := PerCorner.of s.driverToRun } := by
  refine foldl_corners_cc_vd fun m w c corner driver => ?_
  have followed : State.followedProfile { s with cc := m, vd := w } c = s.followedProfile c :=
    State.followedProfile_congr rfl (congrArg Cc.followed corner)
  have limits : State.limits { s with cc := m, vd := w } = s.limits := rfl
  have warm : State.isWarm { s with cc := m, vd := w } c = s.isWarm c := by
    simp only [State.isWarm, limits, driver]
  have interval : State.trimInterval { s with cc := m, vd := w } c = s.trimInterval c := by
    simp only [State.trimInterval, limits, warm]
  have hot : State.isHot { s with cc := m, vd := w } c = s.isHot c := by
    simp only [State.isHot, limits, driver]
  rw [State.armedToRun_eq (s := { s with cc := m, vd := w }) idle]
  simp only [State.driverToRun, State.driverEntered, State.cornerToRun, followed, interval, hot, corner, driver]
  rfl

/-! ## Entry to RUN (R109, R135, R138, R149, R171) -/

/-- The part in RUN, with what the entry gives every corner and every driver, before those in ARMED leave it. -/
def State.orderedToRun (s : State) : State :=
  (((s.setMdc { s.mdc with mode := .run }).setPvs { s.pvs with preview := .active }).mapCc
    fun _ x => x.atRun).mapVd fun _ v => v.atRun

theorem State.enterRun_eq {s : State} (idle : s.cfs.pendingProfile = none) :
    s.enterRun =
      State.makeModeReport
        { s.orderedToRun with
          cc := PerCorner.of s.orderedToRun.cornerToRun, vd := PerCorner.of s.orderedToRun.driverToRun }
        .checksEnded s.mdc.mode :=
  congrArg (State.makeModeReport · .checksEnded s.mdc.mode) (State.foldl_armedToRun_eq (s := s.orderedToRun) idle)

@[simp] theorem State.orderedToRun_vd (s : State) (e : Corner) : s.orderedToRun.vd.get e = (s.vd.get e).atRun := by
  simp [State.orderedToRun]

@[simp] theorem State.orderedToRun_cc (s : State) (e : Corner) : s.orderedToRun.cc.get e = (s.cc.get e).atRun := by
  simp [State.orderedToRun]

section OrderedToRun

variable {s : State} {e : Corner}

theorem State.orderedToRun_followedProfile : s.orderedToRun.followedProfile e = s.followedProfile e :=
  State.followedProfile_congr rfl (by simp [Cc.atRun])

theorem State.orderedToRun_isHot :
    s.orderedToRun.isHot e = true ↔ ∃ h, (s.vd.get e).temperature = some h ∧ (s.limits.hot : Int) ≤ h := by
  rw [State.isHot, atOrAbove_iff, State.orderedToRun_vd]
  rfl

theorem State.orderedToRun_trimInterval :
    s.orderedToRun.trimInterval e =
      if ∃ h, (s.vd.get e).temperature = some h ∧ (s.limits.warm : Int) ≤ h then s.limits.trimInterval / 2
      else s.limits.trimInterval := by
  rw [State.trimInterval_eq, State.orderedToRun_vd]
  rfl

end OrderedToRun

section EnterRun

variable {s : State} (idle : s.cfs.pendingProfile = none)

include idle

theorem State.enterRun_get (e : Corner) :
    s.enterRun.vd.get e = s.orderedToRun.driverToRun e ∧ s.enterRun.cc.get e = s.orderedToRun.cornerToRun e := by
  rw [State.enterRun_eq idle]
  simp

theorem State.enterRun_notArmed {e : Corner} (notArmed : (s.vd.get e).state ≠ .armed) :
    s.enterRun.vd.get e = (s.vd.get e).atRun ∧ s.enterRun.cc.get e = (s.cc.get e).atRun := by
  obtain ⟨driver, corner⟩ := State.enterRun_get idle e
  have notArmed : (s.orderedToRun.vd.get e).state ≠ .armed := by
    rw [State.orderedToRun_vd]
    exact notArmed
  rw [driver, corner, State.driverToRun, State.cornerToRun, if_neg notArmed, if_neg notArmed, State.orderedToRun_vd,
    State.orderedToRun_cc]
  exact ⟨rfl, rfl⟩

/-- A driver in ARMED enters DRIVE at the floor of its profile, or HOLD if it is hot (R135). -/
theorem State.enterRun_armed {e : Corner} (armed : (s.vd.get e).state = .armed) :
    let floor := (s.followedProfile e).floor
    let hot := ∃ h, (s.vd.get e).temperature = some h ∧ (s.limits.hot : Int) ≤ h
    let warm := ∃ h, (s.vd.get e).temperature = some h ∧ (s.limits.warm : Int) ≤ h
    let scheduled :=
      (s.vd.get e).atRun.scheduled (if warm then s.limits.trimInterval / 2 else s.limits.trimInterval)
    s.enterRun.cc.get e = { (s.cc.get e).atRun with lastDemand := floor }
      ∧ (hot → s.enterRun.vd.get e = (scheduled.driving (s.map e) floor).holding (s.map e))
      ∧ (¬hot → s.enterRun.vd.get e = scheduled.driving (s.map e) floor) := by
  intro floor hot warm scheduled
  obtain ⟨driver, corner⟩ := State.enterRun_get idle e
  have armed : (s.orderedToRun.vd.get e).state = .armed := by
    rw [State.orderedToRun_vd]
    exact armed
  rw [driver, corner, State.driverToRun, State.driverEntered, State.cornerToRun, if_pos armed, if_pos armed,
    State.orderedToRun_trimInterval, State.orderedToRun_followedProfile, State.orderedToRun_vd, State.orderedToRun_cc]
  refine ⟨rfl, fun isHot => ?_, fun notHot => ?_⟩
  · rw [if_pos (State.orderedToRun_isHot.2 isHot)]
    rfl
  · rw [if_neg (mt State.orderedToRun_isHot.1 notHot)]
    rfl

theorem State.enterRun_cfs : s.enterRun.cfs = s.cfs := by
  rw [State.enterRun_eq idle, State.makeModeReport]
  rfl

theorem State.enterRun_mdc (starting : s.mdc.mode = .starting) :
    s.enterRun.mdc =
      { s.mdc with
        mode := .run, supersededCount := s.mdc.nextSuperseded
        marker := some
          { cause := .checksEnded, mode := .run, previous := .starting, preview := .active
            faultedCount := s.mdc.faultedCount, superseded := s.mdc.nextSuperseded } } := by
  rw [State.enterRun_eq idle, starting, State.makeModeReport]
  rfl

end EnterRun

/-! ## The ends of checks (R132, R134, R153, R157, R171) -/

theorem Mdc.checksPassed_iff (m : Mdc) :
    m.checksPassed = true ↔ (∀ e, m.checkEnds.get e ≠ none)
      ∧ ([Corner.fl, .fr, .rl, .rr].filter fun e => m.checkEnds.get e = some .faulted).length ≤ 1 := by
  have all (e : Corner) : e ∈ corners := by cases e <;> decide
  simp only [Mdc.checksPassed, Bool.and_eq_true, List.all_eq_true, decide_eq_true_eq, Option.isSome_iff_ne_none, all,
    true_imp_iff]
  rfl

section RunIfChecked

variable {s : State}

theorem State.runIfChecked_waits (h : ¬s.mdc.checksPassed = true) : s.runIfChecked = s := if_neg fun both => h both.2

theorem State.runIfChecked_enters (starting : s.mdc.mode = .starting) (h : s.mdc.checksPassed = true) :
    s.runIfChecked = s.enterRun := if_pos ⟨starting, h⟩

end RunIfChecked

/-- The driver and the check end of a START check that passed, before the Mode Controller answers (R134). -/
theorem State.checkPassed_armed {s : State} (starting : s.mdc.mode = .starting) (c : Corner) (resistance : Nat) :
    s.checkPassed c resistance =
      ((s.setVd c (((s.vd.get c).estimated (s.map c) resistance).atRest .armed)).noteCheckEnd c .armed).runIfChecked := by
  rw [State.checkPassed_starting starting, State.setEstimates_eq, State.armed, State.setVd_setVd, State.setVd_vd,
    PerCorner.get_set_same]

/-- A fault that ends a START check: its driver, the faulted count and the check end (R153, R157). -/
theorem State.tookFault_starting {s : State} {c : Corner} (starting : s.mdc.mode = .starting)
    (checking : (s.vd.get c).state = .checking) (kind : FaultKind) (measured : Nat) :
    s.tookFault c kind measured =
      (s.setVd c ((s.vd.get c).fault c (s.faultRecord c kind measured))).setMdc
        { s.mdc with
          faultedCount := s.mdc.faultedCount + 1, checkEnds := s.mdc.checkEnds.set c (some .faulted) } := by
  rw [State.tookFault, State.driverLeft_undriven (by simp [checking]) (by simp [checking]), State.tellFaulted,
    if_pos ⟨checking, starting⟩]
  rfl

/-- The first fault in STARTING is answered as a check end is. -/
theorem State.enterFaulted_firstInStarting {s : State} {c : Corner} (zero : s.mdc.faultedCount = 0) (kind : FaultKind)
    (measured : Nat) : s.enterFaulted c kind measured = (s.tookFault c kind measured).runIfChecked := by
  rw [State.enterFaulted_eq, State.escalate_first (by simp [State.tookFault_mdc, zero])]

/-- In STARTING no switch is pending. -/
theorem State.idle_of_pendingAgrees {s : State} (starting : s.mdc.mode = .starting) (agrees : s.pendingAgrees) :
    s.cfs.pendingProfile = none := by
  rw [State.pendingAgrees, starting] at agrees
  simpa using agrees

/-- Settles O55: each end of a check leads to `State.runIfChecked`, and entry to RUN leaves every corner and driver as
`State.enterRun_armed` and `State.enterRun_notArmed` say. -/
theorem startChecksEndInRun : Obligations.StartChecksEndInRun := by
  intro s c free starting checking m v last entersRun
  have enters {u : State} (now : u.mdc.mode = .starting) (idle : u.cfs.pendingProfile = none) :
      entersRun u u.enterRun := by
    refine ⟨State.enterRun_mdc idle now, by simp, by simp, by simp, State.enterRun_cfs idle, fun e => ?_⟩
    intro w floor hot warm x
    refine ⟨fun notArmed => State.enterRun_notArmed idle notArmed, fun armed => ?_⟩
    obtain ⟨corner, hold, drive⟩ := State.enterRun_armed idle armed
    refine ⟨corner, ?_⟩
    by_cases isHot : hot
    · rw [hold isHot, if_pos isHot, if_pos isHot]
      rfl
    · rw [drive isHot, if_neg isHot, if_neg isHot]
      rfl
  constructor
  · intro r armed
    rw [exec_checkCompletion free checking]
    refine ⟨fun short => ?_, fun notShort openCoil => ?_, fun notShort notOpen notLast => ?_,
      fun notShort notOpen isLast agrees => ?_⟩
    · rw [State.checkCompletes_short short]
    · rw [State.checkCompletes_open notShort openCoil]
    all_goals rw [State.checkCompletes_ok notShort notOpen, State.checkPassed_armed starting]
    · exact congrArg Host.Outcome.next (State.runIfChecked_waits (s := armed) (mt (Mdc.checksPassed_iff _).1 notLast))
    · have idle : s.cfs.pendingProfile = none := State.idle_of_pendingAgrees starting agrees
      refine ⟨armed.enterRun, congrArg Host.Outcome.next ?_, enters starting idle⟩
      exact State.runIfChecked_enters (s := armed) starting ((Mdc.checksPassed_iff _).2 isLast)
  · intro kind measured zero record faulted
    have taken : s.tookFault c kind measured = faulted := by
      rw [State.tookFault_starting starting checking, Vd.fault, Vd.nextRetry_eq, State.faultRecord, zero, checking,
        starting]
      rfl
    rw [State.enterFaulted_firstInStarting zero, taken]
    refine ⟨fun notLast => State.runIfChecked_waits (mt (Mdc.checksPassed_iff _).1 notLast), fun isLast agrees => ?_⟩
    rw [State.runIfChecked_enters (s := faulted) starting ((Mdc.checksPassed_iff _).2 isLast)]
    exact enters starting (State.idle_of_pendingAgrees starting agrees)

end Sys2Proof.Machine
end

section
/-! What a command can do to a driver and to its corner's last demand, whatever the command (chapters 07 to 09): a rule
about them that each of these changes keeps is kept by every step. -/

namespace Sys2Proof.Machine

/-! ## The changes of a driver -/

/-- A demand that a driver holds and its corner's last one: both are the new one, or both stay. -/
def Vd.demandGoes (v : Vd) (d : Nat) (w : Vd) (e : Nat) : Prop :=
  w.heldDemand = e ∨ (w.heldDemand = v.heldDemand ∧ e = d)

/-- A trim of a kind has something to do at a driver (R139). -/
def Vd.wants (v : Vd) : TrimKind → Prop
  | .due => 0 < v.balance
  | .pullIn => 0 < v.pullIn

/-- A rule about the part mode, a driver and its corner's last demand that every change of a driver keeps. -/
structure DriverRule (Q : PartMode → Vd → Nat → Prop) : Prop where
  /-- A change of items that no demand and no trim depends on. -/
  congr : ∀ {m v w d}, Q m v d → w.state = v.state → w.trim = v.trim → w.balance = v.balance → w.pullIn = v.pullIn →
    w.heldDemand = v.heldDemand → Q m w d
  /-- An entry to a state without demands, or a change of the mode to or from RUN that leaves the driver its state. -/
  rests : ∀ {m n v w d}, Q m v d → w.state.takesDemand = false ∨ (m ≠ .run ∧ w.state = v.state) → w.pullIn = 0 →
    w.balance = v.balance → w.heldDemand = v.heldDemand → Q n w d
  /-- An entry to DRIVE or HOLD with the trim schedule just started (R134, R135). -/
  schedules : ∀ {v w d e}, Q .run v d → w.state = .drive ∨ w.state = .hold → w.balance = 0 → w.pullIn = 0 →
    v.demandGoes d w e → Q .run w e
  /-- An entry to DRIVE or HOLD from a trim that passed (R145). -/
  passes : ∀ {m v w d e t}, Q m v d → v.state = .trim → v.trim = some t → w.state = .drive ∨ w.state = .hold →
    w.balance = v.balance - 1 → w.pullIn = 0 ∨ w.pullIn = (v.trimmed t.kind).pullIn → v.demandGoes d w e → Q m w e
  /-- A trim that starts (R139 to R141). -/
  starts : ∀ {m v d kind} (origin : TrimOrigin), Q m v d → v.state = .drive ∨ v.state = .hold → v.wants kind →
    Q m (v.trimming origin kind) d
  /-- An accepted TRIM_AHEAD (R142). -/
  asks : ∀ {m v d} {count : Nat}, Q m v d → v.state = .drive → count ≤ 4 → -4 ≤ v.balance - count →
    Q m { v with pullIn := count } d
  /-- The balance rises (R137). -/
  rises : ∀ {m v d}, Q m v d → Q m { v with balance := v.balance + 1 } d
  /-- A demand is handed over (R129). -/
  hands : ∀ {m v d}, Q m v d → ∀ e, Q m { v with heldDemand := e } e
  /-- A full reset, or RESTART (R109, R149). -/
  resets : Q .config Vd.reset 1000

/-- A rule holds of every driver. -/
def State.everyDriver (Q : PartMode → Vd → Nat → Prop) (s : State) : Prop :=
  ∀ c, Q s.mdc.mode (s.vd.get c) (s.cc.get c).lastDemand

section EveryDriver

variable {Q : PartMode → Vd → Nat → Prop} {s t : State}

theorem State.everyDriver_of_same (h : s.everyDriver Q) (mode : t.mdc.mode = s.mdc.mode) (vd : t.vd = s.vd)
    (last : ∀ c, (t.cc.get c).lastDemand = (s.cc.get c).lastDemand) : t.everyDriver Q := by
  intro c
  rw [mode, vd, last]
  exact h c

/-- A write of one driver, and of its corner's last demand. -/
theorem State.everyDriver_setBoth {c : Corner} {v : Vd} {x : Cc} (h : s.everyDriver Q)
    (now : Q s.mdc.mode v x.lastDemand) : ((s.setVd c v).setCc c x).everyDriver Q := by
  intro d
  by_cases same : d = c
  · subst same
    simpa using now
  · simpa [same] using h d

theorem State.everyDriver_setVd {c : Corner} {v : Vd} (h : s.everyDriver Q)
    (now : Q s.mdc.mode v (s.cc.get c).lastDemand) : (s.setVd c v).everyDriver Q := by
  have both := State.everyDriver_setBoth (c := c) (x := s.cc.get c) h now
  have written : (s.setVd c v).setCc c (s.cc.get c) = s.setVd c v := (s.setVd c v).setCc_get c
  rwa [written] at both

theorem State.everyDriver_setCc {c : Corner} {x : Cc} (h : s.everyDriver Q)
    (last : x.lastDemand = (s.cc.get c).lastDemand) : (s.setCc c x).everyDriver Q := by
  refine State.everyDriver_of_same h rfl rfl fun d => ?_
  by_cases same : d = c
  · subst same
    simpa using last
  · simp [same]

theorem State.everyDriver_driverLeft (h : s.everyDriver Q) (c : Corner) (former : DriverState) :
    (s.driverLeft c former).everyDriver Q := by
  refine State.everyDriver_of_same h (by simp) (by simp) fun d => ?_
  obtain ⟨_, _, _, cc⟩ := s.driverLeft_cc c former
  by_cases same : d = c
  · rw [cc, same, PerCorner.get_set_same]
  · rw [cc, PerCorner.get_set_ne same]

end EveryDriver

/-! ## What leaves the last demands: the profile switch and the odometers -/

section LastDemand

variable (s : State) (c e : Corner)

theorem State.acceptSwitch_drivers (p : ProfileName) :
    (s.acceptSwitch p).mdc.mode = s.mdc.mode ∧ (s.acceptSwitch p).vd = s.vd := by
  unfold State.acceptSwitch
  split <;> simp

theorem State.acceptSwitch_lastDemand (p : ProfileName) :
    ((s.acceptSwitch p).cc.get e).lastDemand = (s.cc.get e).lastDemand := by
  have begun : (s.begun p e).lastDemand = (s.cc.get e).lastDemand := by
    unfold State.begun
    split <;> rfl
  cases mode : s.mdc.mode with
  | config | standby => simp [State.acceptSwitch, mode, State.immediateSwitch]
  | starting | run => simpa [State.acceptSwitch, mode, State.beginSwitch_eq, State.allBegun] using begun
  | safe => simp [State.acceptSwitch, mode]

theorem State.switchAtStandby_lastDemand : (s.switchAtStandby.cc.get e).lastDemand = (s.cc.get e).lastDemand := by
  cases pending : s.cfs.pendingProfile with
  | none => rw [State.switchAtStandby_idle pending]
  | some p =>
    simp only [State.switchAtStandby_eq pending, State.completeSwitch_frame, State.allOvertaken, PerCorner.get_of,
      State.overtaken]
    split <;> rfl

theorem State.giveMiss_lastDemand (given : Bool) :
    ((s.giveMiss c given).cc.get e).lastDemand = (s.cc.get e).lastDemand := by
  unfold State.giveMiss
  split
  · by_cases same : e = c
    · subst same
      simp
    · simp [same]
  · rfl

theorem State.takeFrontPulse_lastDemand (t : Track) (time : Nat) :
    ((s.takeFrontPulse t time).cc.get e).lastDemand = (s.cc.get e).lastDemand := by
  by_cases ahead : (s.tod.get t).direction = .forward
  · simp [State.takeFrontPulse_forward ahead, State.handAdvance, State.giveMiss_lastDemand]
  · simp [State.takeFrontPulse_away ahead]

end LastDemand

namespace DriverRule

variable {Q : PartMode → Vd → Nat → Prop} (k : DriverRule Q)

include k

/-! ## The start tests -/

theorem told {m : PartMode} {v : Vd} {d : Nat} (h : Q m v d) (quiet : Bool) : Q m (v.told quiet) d := by
  have heard : Q m { v with quiet } d := k.congr h rfl rfl rfl rfl rfl
  rw [Vd.told_eq]
  split
  · rename_i starts
    obtain ⟨drive, _, wants⟩ := starts
    by_cases due : 0 < v.balance
    · rw [if_pos due]
      exact k.starts .drive heard (.inl drive) due
    · rw [if_neg due]
      exact k.starts .drive heard (.inl drive) (wants.resolve_left due)
  · exact heard

theorem expired {m : PartMode} {v : Vd} {d : Nat} (h : Q m v d) : Q m v.expired d := by
  unfold Vd.expired
  split
  · rename_i starts
    obtain ⟨drive, due⟩ := starts
    have due : 0 < v.balance := by omega
    exact k.starts .drive h (.inl drive) due
  · split
    · rename_i starts
      obtain ⟨drive, _, asked⟩ := starts
      exact k.starts .drive h (.inl drive) asked
    · split
      · rename_i starts
        obtain ⟨hold, due⟩ := starts
        exact k.starts .hold h (.inr hold) due
      · exact h

section Operations

variable {s : State} (h : s.everyDriver Q)

include h

theorem driveStartTest (c : Corner) : (s.driveStartTest c).everyDriver Q := by
  rw [State.driveStartTest_told]
  exact State.everyDriver_setVd h (k.told (h c) _)

theorem holdStartTest (c : Corner) : (s.holdStartTest c).everyDriver Q := by
  rw [State.holdStartTest_eq]
  split
  · rename_i starts
    obtain ⟨hold, due⟩ := starts
    exact State.everyDriver_setVd h (k.starts .hold (h c) (.inr hold) due)
  · exact h

theorem tellQuiet (c : Corner) (quiet : Bool) : (s.tellQuiet c quiet).everyDriver Q := by
  rw [State.tellQuiet_eq]
  exact State.everyDriver_setVd h (k.told (h c) quiet)

theorem trimTimerExpires (c : Corner) : (s.trimTimerExpires c).everyDriver Q := by
  rw [State.trimTimerExpires_eq]
  exact State.everyDriver_setVd h (k.expired (k.congr (k.rises (h c)) rfl rfl rfl rfl rfl))

theorem pullAhead {c : Corner} {count : Byte} (finding : s.trimAheadFinding c count = .ok) :
    (s.pullAhead c count.toNat).everyDriver Q := by
  rw [State.trimAheadFinding_eq] at finding
  split at finding
  · cases finding
  rename_i counted
  split at finding
  case isFalse => cases finding
  rename_i drive
  split at finding
  case isFalse => cases finding
  rename_i enough
  rw [State.pullAhead_eq]
  exact State.everyDriver_setVd h (k.told (k.asks (h c) drive (by omega) enough) _)

/-! ## The update -/

theorem updateInRun (c : Corner) (raw : Int) : (s.updateInRun c raw).everyDriver Q := by
  intro e
  have mode : (s.updateInRun c raw).mdc.mode = s.mdc.mode := by simp
  by_cases same : e = c
  · subst same
    obtain ⟨last, _⟩ := s.updateInRun_bookkept e raw
    rw [mode, State.updateInRun_vd, PerCorner.get_set_same, last]
    refine k.told ?_ _
    unfold State.driverHanded
    split
    · exact k.congr (k.hands (h e) _) rfl rfl rfl rfl rfl
    · exact h e
  · obtain ⟨corner, driver⟩ := s.updateInRun_others c raw same
    rw [mode, corner, driver]
    exact h e

theorem updateOutsideRun (c : Corner) : (s.updateOutsideRun c).everyDriver Q := by
  have taken : (s.setCc c { s.cc.get c with missNotice := false, previousHeight := none }).everyDriver Q :=
    State.everyDriver_setCc h rfl
  exact State.everyDriver_setCc (k.tellQuiet taken c true) rfl

/-! ## The changes of mode -/

theorem enterStarting (notRun : s.mdc.mode ≠ .run) : s.enterStarting.everyDriver Q := by
  intro c
  have given : Q .starting (s.vd.get c).atStarting (s.cc.get c).lastDemand := by
    unfold Vd.atStarting
    split
    · exact k.rests (h c) (.inl rfl) rfl rfl rfl
    · exact k.rests (h c) (.inr ⟨notRun, rfl⟩) rfl rfl rfl
  simpa [State.enterStarting] using given

theorem armedToRun (run : s.mdc.mode = .run) (c : Corner) : (s.armedToRun c).everyDriver Q := by
  simp only [State.armedToRun]
  split
  · have entered : ((s.startTrimSchedule c).enterDriveAtFloor c).everyDriver Q := by
      have start : s.startTrimSchedule c = s.setVd c ((s.vd.get c).scheduled (s.trimInterval c)) := rfl
      rw [start, State.enterDriveAtFloor_setVd]
      refine State.everyDriver_setBoth h ?_
      rw [run]
      exact k.schedules (run ▸ h c) (.inl rfl) rfl rfl (.inl rfl)
    split
    · refine State.everyDriver_driverLeft (State.everyDriver_setVd entered ?_) c _
      have running : ((s.startTrimSchedule c).enterDriveAtFloor c).mdc.mode = .run := by simpa using run
      have drives := entered c
      rw [running] at drives ⊢
      exact k.schedules drives (.inr rfl) (by simp [State.enterDriveAtFloor, State.startTrimSchedule]) rfl
        (.inr ⟨rfl, rfl⟩)
    · exact entered
  · exact h

theorem foldl_armedToRun (run : s.mdc.mode = .run) (l : List Corner) : (l.foldl State.armedToRun s).everyDriver Q := by
  induction l generalizing s with
  | nil => exact h
  | cons c l ih => exact ih (k.armedToRun h run c) (by simpa using run)

theorem enterRun (notRun : s.mdc.mode ≠ .run) : s.enterRun.everyDriver Q := by
  have ordered : s.orderedToRun.everyDriver Q := fun c => by
    rw [State.orderedToRun_vd, State.orderedToRun_cc]
    exact k.rests (h c) (.inr ⟨notRun, rfl⟩) rfl rfl rfl
  exact State.everyDriver_of_same (k.foldl_armedToRun ordered rfl corners) (by simp [State.enterRun, State.orderedToRun])
    (by simp [State.enterRun, State.orderedToRun]) fun _ => by simp [State.enterRun, State.orderedToRun]

theorem runIfChecked : s.runIfChecked.everyDriver Q := by
  unfold State.runIfChecked
  split
  · rename_i checked
    exact k.enterRun h (by simp [checked.1])
  · exact h

theorem enterSafe : s.enterSafe.everyDriver Q := by
  intro c
  have released : (s.vd.get c).atSafe.state.takesDemand = false := by
    unfold Vd.atSafe
    split <;> rfl
  have given : Q .safe (s.vd.get c).atSafe (s.cc.get c).lastDemand := k.rests (h c) (.inl released) rfl rfl rfl
  simpa using given

theorem enterStandby : s.enterStandby.everyDriver Q := by
  intro c
  have given : Q .standby (s.vd.get c).atStandby (s.cc.get c).lastDemand := k.rests (h c) (.inl rfl) rfl rfl rfl
  simpa [State.enterStandby, State.switchAtStandby_lastDemand] using given

theorem enterFaulted (c : Corner) (kind : FaultKind) (measured : Nat) :
    (s.enterFaulted c kind measured).everyDriver Q := by
  have released : (s.setVd c ((s.vd.get c).fault c (s.faultRecord c kind measured))).everyDriver Q :=
    State.everyDriver_setVd h (k.rests (h c) (.inl rfl) rfl rfl rfl)
  have taken : (s.tookFault c kind measured).everyDriver Q :=
    State.everyDriver_of_same (State.everyDriver_driverLeft released c (s.vd.get c).state) (by simp [State.tookFault])
      (by simp [State.tookFault]) fun _ => by simp [State.tookFault]
  rw [State.enterFaulted_eq]
  unfold State.escalate
  split
  · exact k.enterSafe taken
  · exact k.runIfChecked taken

/-! ## The samples, the expiries and the completions -/

theorem sample (c : Corner) (current : Nat) : (s.sample c current).everyDriver Q := by
  have kept : (s.setVd c { s.vd.get c with measured := currentReading current }).everyDriver Q :=
    State.everyDriver_setVd h (k.congr (h c) rfl rfl rfl rfl rfl)
  simp only [State.sample]
  split
  · exact k.enterFaulted kept c _ _
  · split
    · exact State.everyDriver_setVd kept (k.congr (kept c) rfl rfl rfl rfl rfl)
    · exact kept

theorem trackingExpires (c : Corner) : (s.trackingExpires c).everyDriver Q := by
  simp only [State.trackingExpires]
  split
  · exact k.enterFaulted h c _ _
  · exact h

theorem recheck (c : Corner) : (s.recheck c).everyDriver Q :=
  State.everyDriver_of_same (s := s.setVd c (s.vd.get c).checking)
    (State.everyDriver_setVd h (k.rests (h c) (.inl rfl) rfl rfl rfl)) rfl rfl fun _ => rfl

theorem checkPassed_run {c : Corner} (run : s.mdc.mode = .run) (checking : (s.vd.get c).state = .checking)
    (resistance : Nat) : (s.checkPassed c resistance).everyDriver Q := by
  have before := h c
  rw [run] at before
  rw [State.checkPassed_run run, State.setEstimates_eq]
  by_cases hot : atOrAbove ((s.vd.get c).estimated (s.map c) resistance).temperature s.limits.hot = true
  · rw [State.rechecked_hot (v := (s.vd.get c).estimated (s.map c) resistance) checking hot]
    refine State.everyDriver_setVd h ?_
    rw [run]
    exact k.schedules before (.inr rfl) rfl rfl (.inr ⟨rfl, rfl⟩)
  · rw [State.rechecked_cool hot]
    refine State.everyDriver_setBoth h ?_
    rw [run]
    exact k.schedules before (.inl rfl) rfl rfl (.inl rfl)

theorem checkPassed {c : Corner} (checking : (s.vd.get c).state = .checking) (resistance : Nat) :
    (s.checkPassed c resistance).everyDriver Q := by
  cases mode : s.mdc.mode with
  | starting =>
    rw [State.checkPassed_armed mode]
    refine k.runIfChecked (State.everyDriver_of_same (s := s.setVd c _) (State.everyDriver_setVd h ?_) rfl rfl
      fun _ => rfl)
    exact k.rests (h c) (.inl rfl) rfl rfl rfl
  | run => exact k.checkPassed_run h mode checking resistance
  | config | safe | standby => simpa only [State.checkPassed, mode] using h

theorem checkCompletes {c : Corner} (checking : (s.vd.get c).state = .checking) (resistance : Nat) :
    (s.checkCompletes c resistance).everyDriver Q := by
  unfold State.checkCompletes
  split
  · exact k.enterFaulted h c _ _
  · exact k.enterFaulted h c _ _
  · exact k.checkPassed h checking resistance

/-- A trim that passed, by its three ends: DRIVE at the held demand, DRIVE at the floor, or HOLD. -/
theorem trimPassed {c : Corner} {trim : Trim} (trims : (s.vd.get c).state = .trim)
    (held : (s.vd.get c).trim = some trim) (resistance : Nat) : (s.trimPassed c trim resistance).everyDriver Q := by
  have passes {w : Vd} {e : Nat} := k.passes (w := w) (e := e) (h c) trims held
  have holds (ends : s.trimEndsInHold c trim resistance) : (s.trimPassed c trim resistance).everyDriver Q := by
    rw [State.trimPassed_hold trims ends]
    refine k.holdStartTest (State.everyDriver_driverLeft (State.everyDriver_setVd h ?_) c _) c
    exact passes (.inr rfl) rfl (.inl rfl) (.inr ⟨rfl, rfl⟩)
  cases origin : trim.origin with
  | drive =>
    by_cases cool : (s.map c).temperatureOf resistance < s.limits.hot
    · rw [State.trimPassed_kept origin cool]
      refine k.driveStartTest (State.everyDriver_setVd h ?_) c
      exact passes (.inl rfl) rfl (.inr rfl) (.inr ⟨rfl, rfl⟩)
    · exact holds (.inl ⟨origin, Int.not_lt.1 cool⟩)
  | hold =>
    by_cases cool : (s.map c).temperatureOf resistance < s.limits.warm
    · rw [State.trimPassed_floor origin cool]
      refine k.driveStartTest (State.everyDriver_setBoth h ?_) c
      exact passes (.inl rfl) rfl (.inr rfl) (.inl rfl)
    · exact holds (.inr ⟨origin, Int.not_lt.1 cool⟩)

theorem trimCompletes {c : Corner} {trim : Trim} (trims : (s.vd.get c).state = .trim)
    (held : (s.vd.get c).trim = some trim) (resistance : Nat) :
    (s.trimCompletes c trim resistance).everyDriver Q := by
  unfold State.trimCompletes
  split
  · exact k.enterFaulted h c _ _
  · exact k.enterFaulted h c _ _
  · exact k.trimPassed h trims held resistance

theorem emptyMarker (m : Marker) : (s.emptyMarker m).everyDriver Q := by
  cases m with
  | fault c => exact State.everyDriver_setVd h (k.congr (h c) rfl rfl rfl rfl rfl)
  | condition c b => exact State.everyDriver_setCc h rfl
  | mode | lock _ | profile => exact h
  | passage =>
    simp only [State.emptyMarker]
    split <;> exact h

end Operations

/-- A rule about drivers that every change of a driver keeps is kept by each change that a command makes. -/
theorem keeps : Keeps (State.everyDriver Q) where
  outer _ _ _ _ h := h
  resumes _ h _ _ := h
  setGroup _ _ _ _ _ _ h _ _ _ := h
  setLocks _ _ _ _ h := h
  writeVariant _ _ _ _ h _ := h
  start _ _ h ok := k.enterStarting h (by rcases State.startFinding_ok_mode ok with m | m <;> simp [m])
  standby _ _ h _ := k.enterStandby h
  restart _ s _ c := by
    simpa [State.applyRestart, Mdc.reset, Cc.reset] using
      k.congr (w := (s.vd.get c).atRestart) k.resets rfl rfl rfl rfl rfl
  motion _ _ _ _ _ h := State.everyDriver_of_same h (by simp) (by simp) (by simp)
  preview _ _ _ _ _ h _ := h
  withdraw _ _ _ _ h _ _ := h
  select _ _ s p h _ _ _ :=
    let ⟨mode, vd⟩ := s.acceptSwitch_drivers p
    State.everyDriver_of_same h mode vd fun e => s.acceptSwitch_lastDemand e p
  trimAhead _ _ _ _ _ h _ finding := k.pullAhead h finding
  recheck _ _ _ c h _ _ := k.recheck h c
  setReporting _ _ _ _ _ _ h := State.everyDriver_setCc h rfl
  clear _ _ _ _ _ _ h := State.everyDriver_setCc h rfl
  fullReset _ _ _ _ c := by cases c <;> exact k.resets
  frontPulse t time _ s h _ := State.everyDriver_of_same h (by simp) (by simp) fun e =>
    s.takeFrontPulse_lastDemand e t time
  rearPulse _ _ _ h _ := State.everyDriver_of_same h (by simp) (by simp) (by simp)
  standstill _ _ _ h _ := h
  updateInRun c raw _ _ h _ := k.updateInRun h c raw
  updateOutsideRun c _ _ _ h _ := k.updateOutsideRun h c
  sample c n _ _ h := k.sample h c n
  trackingExpires c _ _ h := k.trackingExpires h c
  checkCompletes _ r _ _ h checking := k.checkCompletes h checking r
  trimCompletes _ r _ _ _ h trims held := k.trimCompletes h trims held r
  trimTimerExpires c _ _ h _ := k.trimTimerExpires h c
  silence _ _ h _ _ := h
  emptyMarker _ _ m h := k.emptyMarker h m

end DriverRule

/-! ## The held demand (R129) -/

theorem heldIsLast_rule : DriverRule fun _ v d => v.heldDemand = d where
  congr h _ _ _ _ held := held.trans h
  rests h _ _ _ held := held.trans h
  schedules h _ _ _ goes := goes.elim id fun ⟨held, last⟩ => held.trans (h.trans last.symm)
  passes h _ _ _ _ _ goes := goes.elim id fun ⟨held, last⟩ => held.trans (h.trans last.symm)
  starts _ h _ _ := h
  asks h _ _ _ := h
  rises h := h
  hands _ _ := rfl
  resets := rfl

/-- Settles O60: whatever changes the held demand or the last demand changes both, to one value. -/
theorem heldDemandIsTheLastDemand : Obligations.HeldDemandIsTheLastDemand :=
  fun _ _ stepped held => Keeps.step heldIsLast_rule.keeps held stepped

/-! ## The trim balance (R137) -/

/-- The rule of the trim balance as every change keeps it: TRIM is a state of RUN alone. -/
def Vd.trimsIn (m : PartMode) (v : Vd) : Prop := v.trimsBounded ∧ (m ≠ .run → v.state.takesDemand = false)

section TrimsBounded

variable {v w : Vd}

/-- Outside TRIM a driver keeps the bounds by its balance and its pull-in count. -/
theorem Vd.trimsBounded_of_notTrim (notTrim : v.state ≠ .trim) (low : -4 ≤ v.balance) (few : v.pullIn ≤ 4)
    (enough : v.balance ≤ 0 → -4 ≤ v.balance - v.pullIn) : v.trimsBounded :=
  ⟨low, few, enough, fun trims => absurd trims notTrim⟩

theorem Vd.trimsBounded_of_noPullIn (notTrim : v.state ≠ .trim) (low : -4 ≤ v.balance) (none : v.pullIn = 0) :
    v.trimsBounded :=
  Vd.trimsBounded_of_notTrim notTrim low (by omega) fun _ => by omega

/-- The trim that a driver is making wants to be made. -/
theorem Vd.trimsBounded_wants {t : Trim} (h : v.trimsBounded) (trims : v.state = .trim) (held : v.trim = some t) :
    v.wants t.kind := by
  obtain ⟨_, _, _, wanted⟩ := h
  have wanted := wanted trims t held
  cases kind : t.kind with
  | due => simpa only [kind, Vd.wants] using wanted
  | pullIn => simpa only [kind, Vd.wants] using wanted

theorem Vd.trimsBounded_trimming {kind : TrimKind} (h : v.trimsBounded) (wants : v.wants kind) (origin : TrimOrigin) :
    (v.trimming origin kind).trimsBounded := by
  obtain ⟨low, few, enough, _⟩ := h
  refine ⟨low, few, enough, fun _ t held => ?_⟩
  obtain rfl := Option.some.inj held
  cases kind with
  | due => exact wants
  | pullIn => exact wants

/-- A trim that passed has lowered a balance above 0, or a balance that one of the pull-ins was counted in. -/
theorem Vd.trimsBounded_passes {t : Trim} (h : v.trimsBounded) (trims : v.state = .trim) (held : v.trim = some t)
    (notTrim : w.state ≠ .trim) (balance : w.balance = v.balance - 1)
    (pullIn : w.pullIn = 0 ∨ w.pullIn = (v.trimmed t.kind).pullIn) : w.trimsBounded := by
  have wants := Vd.trimsBounded_wants h trims held
  obtain ⟨low, few, enough, _⟩ := h
  rw [Vd.trimmed_eq] at pullIn
  cases kind : t.kind with
  | due =>
    have due : 0 < v.balance := by simpa only [kind, Vd.wants] using wants
    simp only [kind, reduceCtorEq, if_false] at pullIn
    exact Vd.trimsBounded_of_notTrim notTrim (by omega) (by omega) fun _ => by omega
  | pullIn =>
    have asked : 0 < v.pullIn := by simpa only [kind, Vd.wants] using wants
    simp only [kind, if_true] at pullIn
    exact Vd.trimsBounded_of_notTrim notTrim (by omega) (by omega) fun _ => by omega

end TrimsBounded

theorem trimsIn_rule : DriverRule fun m v _ => v.trimsIn m where
  congr h state trim balance pullIn _ := by
    simpa only [Vd.trimsIn, Vd.trimsBounded, state, trim, balance, pullIn] using h
  rests := by
    intro m n v w d h still pullIn balance _
    obtain ⟨⟨low, _⟩, outside⟩ := h
    have still : w.state.takesDemand = false := by
      rcases still with still | ⟨notRun, same⟩
      · exact still
      · rw [same]
        exact outside notRun
    have notTrim : w.state ≠ .trim := fun trims => by simp [trims, DriverState.takesDemand] at still
    exact ⟨Vd.trimsBounded_of_noPullIn notTrim (balance ▸ low) pullIn, fun _ => still⟩
  schedules _ state balance pullIn _ :=
    ⟨Vd.trimsBounded_of_noPullIn (by rcases state with state | state <;> simp [state]) (by omega) pullIn,
      fun notRun => absurd rfl notRun⟩
  passes := by
    intro m v w d e t h trims held state balance pullIn _
    obtain ⟨bounded, outside⟩ := h
    refine ⟨Vd.trimsBounded_passes bounded trims held (by rcases state with state | state <;> simp [state]) balance
      pullIn, fun notRun => ?_⟩
    have still := outside notRun
    simp [trims, DriverState.takesDemand] at still
  starts := by
    intro m v d kind origin h state wants
    obtain ⟨bounded, outside⟩ := h
    refine ⟨Vd.trimsBounded_trimming bounded wants origin, fun notRun => ?_⟩
    have still := outside notRun
    rcases state with state | state <;> simp [state, DriverState.takesDemand] at still
  asks := by
    intro m v d count h drive few enough
    obtain ⟨⟨low, _⟩, outside⟩ := h
    exact ⟨Vd.trimsBounded_of_notTrim (by simp [drive]) low few fun _ => enough, outside⟩
  rises := by
    intro m v d h
    obtain ⟨⟨low, few, enough, wanted⟩, outside⟩ := h
    have risen (_ : v.balance + 1 ≤ 0) : -4 ≤ v.balance + 1 - v.pullIn := by omega
    refine ⟨⟨Int.le_add_one low, few, risen, fun trims t held => ?_⟩, outside⟩
    have wanted := wanted trims t held
    cases kind : t.kind with
    | due =>
      simp only [kind] at wanted ⊢
      omega
    | pullIn => simpa only [kind, Vd.wants] using wanted
  hands h _ := h
  resets := ⟨Vd.trimsBounded_of_noPullIn (by decide) (by decide) rfl, fun _ => rfl⟩

/-- Settles O59: with the drivers in TRIM in RUN alone, as the modes' agreement gives it, every change of a driver keeps
the bounds. -/
theorem trimBalanceNeverFallsBelowMinusFour : Obligations.TrimBalanceNeverFallsBelowMinusFour := by
  intro s t stepped modes bounded c
  obtain ⟨admits, _⟩ := modes
  have before : s.everyDriver fun m v _ => v.trimsIn m := fun e =>
    ⟨bounded e, fun notRun => DriverState.still_of_admitted notRun (admits e)⟩
  exact (Keeps.step trimsIn_rule.keeps before stepped c).1

end Sys2Proof.Machine
end

section
/-! RECHECK (chapter 08): its judgement, one equation per finding of R164, and the driver that an accepted one leaves
(R165), with the statement that they settle. -/

namespace Sys2Proof.Machine

/-! ## RECHECK (R164, R165) -/

/-- A delivered RECHECK is judged, and its reply placed. -/
theorem exec_recheck {s : State} (h : s.delivers) (corner : Byte) :
    exec (.recheck corner) s =
      .next ((judgeRecheck corner s.delivered).1.place (.reply (judgeRecheck corner s.delivered).2)) :=
  congrArg Host.Outcome.next (State.takeRequest_delivers h (judgeRecheck corner))

section RecheckFinding

variable {s : State} {c : Corner}

theorem State.recheckFinding_notFaulted (notFaulted : (s.vd.get c).state ≠ .faulted) :
    s.recheckFinding c = .state := if_pos notFaulted

theorem State.recheckFinding_spent (faulted : (s.vd.get c).state = .faulted) (spent : (s.vd.get c).retryCount = 3) :
    s.recheckFinding c = .retries := by
  rw [State.recheckFinding, if_neg (not_not_intro faulted), if_pos spent]

theorem State.recheckFinding_ok (faulted : (s.vd.get c).state = .faulted) (unspent : (s.vd.get c).retryCount ≠ 3) :
    s.recheckFinding c = .ok := by
  rw [State.recheckFinding, if_neg (not_not_intro faulted), if_neg unspent]

end RecheckFinding

section JudgeRecheck

variable {s : State} {corner : Byte} {c : Corner}

theorem judgeRecheck_noCorner (h : cornerOf corner = none) :
    judgeRecheck corner s = (s, .recheck (if s.mdc.mode = .run then .range else .mode) corner none 0) := by
  simp only [judgeRecheck, h, ne_eq, ite_not]

theorem judgeRecheck_notRun (h : cornerOf corner = some c) (notRun : s.mdc.mode ≠ .run) :
    judgeRecheck corner s = (s, s.recheckReply .mode corner c) := by
  simp only [judgeRecheck, h, if_pos notRun]

theorem judgeRecheck_refuses (h : cornerOf corner = some c) (run : s.mdc.mode = .run) {code : ReplyCode}
    (finding : s.recheckFinding c = code) (refused : code ≠ .ok) :
    judgeRecheck corner s = (s, s.recheckReply code corner c) := by
  simp only [judgeRecheck, h, run, finding, if_neg refused, ne_eq, not_true_eq_false, if_false]

theorem judgeRecheck_accepts (h : cornerOf corner = some c) (run : s.mdc.mode = .run)
    (finding : s.recheckFinding c = .ok) :
    judgeRecheck corner s = (s.recheck c, (s.recheck c).recheckReply .ok corner c) := by
  simp only [judgeRecheck, h, run, finding, if_true, ne_eq, not_true_eq_false, if_false]

end JudgeRecheck

/-- An accepted RECHECK leaves its corner's driver as entry to CHECKING does. -/
theorem State.recheck_get (s : State) (c : Corner) : (s.recheck c).vd.get c = (s.vd.get c).checking := by
  simp only [State.recheck, State.setMdc_vd, State.setVd_vd, PerCorner.get_set_same]

/-- The reply to an accepted RECHECK: the driver is in CHECKING, and its retry count is the one it had. -/
theorem State.recheckReply_recheck (s : State) (code : ReplyCode) (corner : Byte) (c : Corner) :
    (s.recheck c).recheckReply code corner c = .recheck code corner (some .checking) (s.vd.get c).retryCount := by
  rw [State.recheckReply, State.recheck_get]
  rfl

/-- Settles O52: the judgement's case by the finding, and the driver that an accepted one leaves by `State.recheck`. -/
theorem recheckChecksAFaultedCoilAgain : Obligations.RecheckChecksAFaultedCoilAgain := by
  intro s corner delivers
  have mode : s.delivered.mdc.mode = s.mdc.mode := by simp
  have count : s.delivered.mdc.faultedCount = s.mdc.faultedCount := by simp
  have vd : s.delivered.vd = s.vd := by simp
  rw [exec_recheck delivers, ← mode]
  refine ⟨fun outside => by rw [judgeRecheck_noCorner outside], fun c named => ?_⟩
  intro v refuse
  have driver : s.delivered.vd.get c = v := by rw [vd]
  have refused {code : ReplyCode} :
      s.delivered.place (.reply (s.delivered.recheckReply code corner c)) = refuse code := by
    rw [State.recheckReply, driver]
  rw [← driver]
  refine ⟨fun notRun => ?_, fun run notFaulted => ?_, fun run faulted spent => ?_, fun run faulted unspent => ?_⟩
  · rw [judgeRecheck_notRun named notRun, refused]
  · rw [judgeRecheck_refuses named run (State.recheckFinding_notFaulted notFaulted) (by decide), refused]
  · rw [judgeRecheck_refuses named run (State.recheckFinding_spent faulted spent) (by decide), refused]
  · rw [judgeRecheck_accepts named run (State.recheckFinding_ok faulted unspent), State.recheckReply_recheck,
      State.recheck, count]
    rfl

end Sys2Proof.Machine
end

section
/-! START and STANDBY (chapter 09): the judgement of each, one equation per finding, and the part that entry to STARTING
and entry to STANDBY leave, block by block; the statements that they settle. -/

namespace Sys2Proof.Machine

/-! ## Which groups are SET (R177) -/

section Groups

variable {s : State}

theorem State.groupsSet_get (s : State) (g : GroupId) : s.groupsSet.get g = (s.cfs.contents g).isSome := by
  cases g <;> simp [State.groupsSet, PerGroup.get, Cfs.contents]

theorem State.groupsUnset_eq (s : State) : s.groupsUnset = PerGroup.of fun g => (s.cfs.contents g).isNone := by
  simp [State.groupsUnset, State.groupsSet_get]

theorem State.allGroupsSet_iff : s.allGroupsSet = true ↔ ∀ g, s.cfs.contents g ≠ none := by
  simp only [State.allGroupsSet, List.all_eq_true, State.groupsSet_get, Option.isSome_iff_ne_none]
  exact ⟨fun h g => h g (by cases g <;> decide), fun h g _ => h g⟩

end Groups

/-! ## What the arrival of a frame leaves (R40, R190, R195) -/

/-- Outside RUN a frame changes nothing but the link. -/
theorem State.delivered_notRun {s : State} (notRun : s.mdc.mode ≠ .run) :
    s.delivered.mdc = s.mdc ∧ s.delivered.pvs = s.pvs := by
  simp [State.delivered, State.frameArrives, State.arriveAtStore, notRun]

theorem State.delivered_pvs (s : State) : s.delivered.pvs = { s.pvs with preview := s.delivered.pvs.preview } := by
  simp only [State.delivered, State.frameArrives, State.arriveAtStore]
  split <;> simp

theorem State.delivered_lif (s : State) :
    s.delivered.lif =
      { s.lif with previous := .accepted, exchange := none, silence := s.silenceRestarted } := by
  simp [State.delivered, State.endExchange, State.silenceRestarted]

/-! ## START (R170) -/

/-- A delivered START is judged, and its reply placed. -/
theorem exec_start {s : State} (h : s.delivers) :
    exec .start s = .next ((judgeStart s.delivered).1.place (.reply (judgeStart s.delivered).2)) :=
  congrArg Host.Outcome.next (State.takeRequest_delivers h judgeStart)

section JudgeStart

variable {s : State}

theorem judgeStart_mode (notConfig : s.mdc.mode ≠ .config) (notStandby : s.mdc.mode ≠ .standby) :
    judgeStart s = (s, .start .mode s.mdc.mode (PerGroup.of fun _ => false)) := by
  simp [judgeStart, State.startFinding, notConfig, notStandby]

variable (still : s.mdc.mode = .config ∨ s.mdc.mode = .standby)

include still

/-- In CONFIG and STANDBY the first finding is not met. -/
theorem State.startFinding_still :
    s.startFinding = if ¬s.allGroupsSet then .order else if s.cfs.variant = none then .noVariant else .ok :=
  if_neg fun ⟨notConfig, notStandby⟩ => still.elim notConfig notStandby

theorem judgeStart_order {g : GroupId} (unset : s.cfs.contents g = none) :
    judgeStart s = (s, .start .order s.mdc.mode (PerGroup.of fun h => (s.cfs.contents h).isNone)) := by
  have notAll : ¬s.allGroupsSet = true := fun all => State.allGroupsSet_iff.1 all g unset
  have finding : s.startFinding = .order := by rw [State.startFinding_still still, if_pos notAll]
  simp only [judgeStart, finding, State.groupsUnset_eq]

variable (allSet : ∀ g, s.cfs.contents g ≠ none)

include allSet

theorem judgeStart_noVariant (unwritten : s.cfs.variant = none) :
    judgeStart s = (s, .start .noVariant s.mdc.mode (PerGroup.of fun _ => false)) := by
  have finding : s.startFinding = .noVariant := by
    rw [State.startFinding_still still, if_neg (not_not_intro (State.allGroupsSet_iff.2 allSet)), if_pos unwritten]
  simp only [judgeStart, finding]

theorem judgeStart_accepts (written : s.cfs.variant ≠ none) :
    judgeStart s = (s.enterStarting, .start .ok .starting (PerGroup.of fun _ => false)) := by
  have finding : s.startFinding = .ok := by
    rw [State.startFinding_still still, if_neg (not_not_intro (State.allGroupsSet_iff.2 allSet)), if_neg written]
  simp only [judgeStart, finding, State.enterStarting_frame]

end JudgeStart

/-- The part as entry to STARTING leaves it: the Mode Controller, the drivers and the corners change. -/
theorem State.enterStarting_eq (s : State) :
    s.enterStarting =
      { s with
        mdc :=
          { mode := .starting, faultedCount := s.mdc.faultedCount, checkEnds := PerCorner.of fun _ => none
            supersededCount := s.mdc.nextSuperseded
            marker := some
              { cause := .start, mode := .starting, previous := s.mdc.mode, preview := s.pvs.preview
                faultedCount := s.mdc.faultedCount, superseded := s.mdc.nextSuperseded } }
        vd := PerCorner.of fun c => (s.vd.get c).atStarting
        cc := PerCorner.of fun c => { s.cc.get c with previousHeight := none } } := rfl

/-- Settles O21: the judgement's case by the finding, and the part that an accepted START leaves by
`State.enterStarting_eq`. -/
theorem startEntersStarting : Obligations.StartEntersStarting := by
  intro s delivers
  have mode : s.delivered.mdc.mode = s.mdc.mode := by simp
  have cfs : s.delivered.cfs = s.cfs := by simp
  have cc : s.delivered.cc = s.cc := by simp
  have vd : s.delivered.vd = s.vd := by simp
  rw [exec_start delivers]
  refine ⟨fun notConfig notStandby => ?_, fun still => ?_⟩
  · rw [judgeStart_mode (mode ▸ notConfig) (mode ▸ notStandby), mode]
  have notRun : s.mdc.mode ≠ .run := by rcases still with h | h <;> simp [h]
  obtain ⟨mdc, pvs⟩ := State.delivered_notRun notRun
  rw [← mdc] at still
  rw [← mdc, ← pvs, ← cfs, ← cc, ← vd]
  refine ⟨fun g unset => ?_, fun allSet unwritten => ?_, fun allSet written => ?_⟩
  · rw [judgeStart_order still unset]
  · rw [judgeStart_noVariant still allSet unwritten]
  · rw [judgeStart_accepts still allSet written, State.enterStarting_eq]
    rfl

/-! ## STANDBY (R172) -/

/-- A delivered STANDBY is judged, and its reply placed. -/
theorem exec_standby {s : State} (h : s.delivers) :
    exec .standby s = .next ((judgeStandby s.delivered).1.place (.reply (judgeStandby s.delivered).2)) :=
  congrArg Host.Outcome.next (State.takeRequest_delivers h judgeStandby)

section JudgeStandby

variable {s : State}

theorem judgeStandby_still (still : s.mdc.mode = .config ∨ s.mdc.mode = .standby) :
    judgeStandby s = (s, .standby .ok s.mdc.mode) := by
  rcases still with mode | mode <;> simp only [judgeStandby, mode]

theorem judgeStandby_enters (moves : s.mdc.mode = .starting ∨ s.mdc.mode = .run ∨ s.mdc.mode = .safe) :
    judgeStandby s = (s.enterStandby, .standby .ok .standby) := by
  rcases moves with mode | mode | mode <;> simp only [judgeStandby, mode, State.enterStandby_frame]

end JudgeStandby

/-! ## Entry to STANDBY, block by block (R17, R42, R86, R109, R149, R172, R175) -/

section EnterStandby

variable (s : State)

theorem State.enterStandby_mdc :
    s.enterStandby.mdc =
      { s.mdc with
        mode := .standby, faultedCount := 0, supersededCount := s.mdc.nextSuperseded
        marker := some
          { cause := .standbyRequest, mode := .standby, previous := s.mdc.mode, preview := .suspended
            faultedCount := 0, superseded := s.mdc.nextSuperseded } } := rfl

theorem State.enterStandby_vd : s.enterStandby.vd = PerCorner.of fun c => (s.vd.get c).atStandby := by
  simp [State.enterStandby]

theorem State.enterStandby_cfs : s.enterStandby.cfs = s.switchAtStandby.cfs := by
  simp [State.enterStandby]

theorem State.enterStandby_cc (c : Corner) :
    s.enterStandby.cc.get c = { s.switchAtStandby.cc.get c with previousHeight := none } := by
  simp [State.enterStandby]

end EnterStandby

/-- An odometer leaves LOCKED with a report, and any other state without one. -/
theorem Tod.atStandby_eq (o : Tod) (t : Track) :
    o.atStandby t =
      { o with
        lock := .unlocked, runCount := 0, frontTravel := 0, rearTravel := 0, speed := 0, previousTime := none
        lastInterval := none, standstill := .stopped
        marker :=
          if o.lock = .locked then
            some { track := t, state := .unlocked, cause := .standby, position := o.position }
          else o.marker } := by
  unfold Tod.atStandby
  split <;> rfl

section SwitchAtStandby

variable {s : State} {p : ProfileName} (pending : s.cfs.pendingProfile = some p)

include pending

/-- The switch that entry to STANDBY completes (R86): every corner, and the selection with its PROFILE report. -/
theorem State.switchAtStandby_completes :
    s.switchAtStandby =
      (s.allOvertaken p).setCfs
        { s.cfs with
          active := p, pendingProfile := none
          profileMarker := some
            { active := p, previous := s.cfs.active
              positions := PerCorner.of fun c => (s.overtaken p c).switchPosition } } := by
  have all (c : Corner) : ((s.allOvertaken p).cc.get c).followed = p := by
    rw [State.allOvertaken, PerCorner.get_of, State.overtaken_followed]
  rw [State.switchAtStandby_eq pending, State.completeSwitch_last (s := s.allOvertaken p) pending all]
  simp only [State.allOvertaken, PerCorner.get_of]

theorem State.enterStandby_cc_pending (c : Corner) :
    s.enterStandby.cc.get c = { s.overtaken p c with previousHeight := none } := by
  rw [State.enterStandby_cc, State.switchAtStandby_completes pending, State.setCfs_cc, State.allOvertaken,
    PerCorner.get_of]

theorem State.enterStandby_cfs_pending :
    s.enterStandby.cfs =
      { s.cfs with
        active := p, pendingProfile := none
        profileMarker := some
          { active := p, previous := s.cfs.active
            positions := PerCorner.of fun c => (s.enterStandby.cc.get c).switchPosition } } := by
  simp only [State.enterStandby_cc_pending pending]
  rw [State.enterStandby_cfs, State.switchAtStandby_completes pending, State.setCfs_cfs]

end SwitchAtStandby

/-- What entry to STANDBY makes of a corner's profile reads the same at the delivery of a request. -/
theorem State.delivered_overtaken (s : State) (p : ProfileName) (c : Corner) :
    s.delivered.overtaken p c = s.overtaken p c := by
  simp [State.overtaken]

/-- Settles O22: the judgement's case by the mode, and each block of the part that entry to STANDBY leaves. -/
theorem standbyEntersStandby : Obligations.StandbyEntersStandby := by
  intro s delivers
  have mode : s.delivered.mdc.mode = s.mdc.mode := by simp
  have cfs : s.delivered.cfs = s.cfs := by simp
  have tod : s.delivered.tod = s.tod := by simp
  have vd : s.delivered.vd = s.vd := by simp
  rw [exec_standby delivers, ← mode]
  refine ⟨fun still => by rw [judgeStandby_still still], fun moves => ⟨s.delivered.enterStandby, ?_⟩⟩
  rw [judgeStandby_enters moves]
  refine ⟨rfl, ?_, fun u => ?_, ?_, fun c => ?_, fun idle => ⟨?_, fun c => ?_⟩,
    fun p pending => ⟨fun c => ?_, ?_⟩, by simp⟩
  · simp only [State.enterStandby_mdc, State.delivered_frame]
  · rw [State.enterStandby_tod, PerTrack.get_of, Tod.atStandby_eq, tod]
  · rw [State.enterStandby_pvs, State.delivered_pvs]
    rfl
  · rw [State.enterStandby_vd, PerCorner.get_of, vd]
    rfl
  · rw [State.enterStandby_cfs, State.switchAtStandby_idle (cfs ▸ idle), cfs]
  · rw [State.enterStandby_cc, State.switchAtStandby_idle (cfs ▸ idle), State.delivered_cc]
  · rw [State.enterStandby_cc_pending (cfs ▸ pending), State.delivered_overtaken, State.overtaken]
    split <;> rfl
  · rw [State.enterStandby_cfs_pending (cfs ▸ pending), cfs]

end Sys2Proof.Machine
end

section
/-! RESTART and full reset (chapter 09): the values that each gives every block, that a held reset input keeps them, and
that they meet every invariant; the statements that they settle. -/

namespace Sys2Proof.Machine

/-! ## The full-reset values of each track and corner -/

@[simp] theorem State.reset_tod (t : Track) : State.reset.tod.get t = Tod.reset := PerTrack.get_of _ t

@[simp] theorem State.reset_cc (c : Corner) : State.reset.cc.get c = Cc.reset := PerCorner.get_of _ c

@[simp] theorem State.reset_vd (c : Corner) : State.reset.vd.get c = Vd.reset := PerCorner.get_of _ c

@[simp] theorem Store.reset_list (t : Track) : Store.reset.lists.get t = [] := PerTrack.get_of _ t

theorem Cfs.reset_unset (g : GroupId) : Cfs.reset.contents g = none ∧ Cfs.reset.locks.get g = false := by
  refine ⟨?_, PerGroup.get_of _ g⟩
  cases g <;> rfl

/-! ## RESTART (R173) -/

/-- The part as RESTART leaves it, before its reply: only the link stays, with the groups, the locks, the variant record
and the measured currents. -/
theorem State.applyRestart_eq (s : State) :
    s.applyRestart =
      { State.reset with
        pending := s.pending, resetHeld := s.resetHeld, lif := s.lif, cfs := s.cfs.atRestart
        vd := PerCorner.of fun c => { State.reset.vd.get c with measured := (s.vd.get c).measured } } := by
  simp only [State.reset_vd]
  rfl

/-- RESTART is taken while the reset input is not held, with any number of records in the queue. -/
theorem exec_restart {s : State} (free : s.resetHeld = false) :
    exec .restart s = .next (s.delivered.applyRestart.setLif
      { s.delivered.lif with queue := [.reply (.restart .config)] }) :=
  congrArg Host.Outcome.next (State.unlessHeld_free free _)

/-- Settles O23: RESTART is taken whatever the queue holds, and each block is as `State.applyRestart_eq` says. -/
theorem restartReturnsToConfig : Obligations.RestartReturnsToConfig := by
  intro s free
  rw [exec_restart free, State.applyRestart_eq, State.delivered_lif]
  simp only [State.delivered_frame, free]
  rfl

/-! ## The held reset input (R174) -/

section Held

variable {s : State} (held : s.resetHeld = true)

include held

theorem State.takeRequest_held (judge : State → State × Reply) : s.takeRequest judge = s :=
  State.unlessHeld_held held _

theorem State.takeRequestOfLength_held (k : RequestKind) (n : Nat) (judge : State → State × Reply) :
    s.takeRequestOfLength k n judge = s := by
  unfold State.takeRequestOfLength
  split
  · exact State.takeRequest_held held judge
  · exact State.unlessHeld_held held _

/-- While the reset input is held, only its release and another full reset change the part. -/
theorem exec_held {c : Instr} (notReset : ∀ k, c ≠ .fullReset k) (notRelease : c ≠ .resetRelease) :
    exec c s = .next s := by
  cases c with
  | fullReset k => exact absurd rfl (notReset k)
  | resetRelease => exact absurd rfl notRelease
  | identify | readGroup | setLocks | writeVariant | start | standby | motion | withdraw | selectProfile | trimAhead
  | recheck | setReporting | clearConditions | readOrigin | status =>
    exact congrArg Host.Outcome.next (State.takeRequest_held held _)
  | setGroup | preview => exact congrArg Host.Outcome.next (State.takeRequestOfLength_held held _ _ _)
  | _ => exact congrArg Host.Outcome.next (State.unlessHeld_held held _)

end Held

/-! ## Full reset (R174) -/

/-- Settles O24: the full-reset values of each block, and for the held input `exec_held`. -/
theorem fullResetSetsEveryItem : Obligations.FullResetSetsEveryItem :=
  ⟨fun _ => ⟨rfl, rfl, rfl⟩, fun _ _ held => exec_held held, rfl, rfl, Cfs.reset_unset, rfl, rfl, rfl, rfl, rfl,
    State.reset_tod, rfl, rfl, State.reset_cc, State.reset_vd⟩

/-! ## The invariants at reset: the link, the configuration, the drivers and the modes -/

/-- What every change keeps, a full reset among them, holds after a full reset. -/
theorem Keeps.reset {P : State → Prop} (k : Keeps P) : P State.reset := k.fullReset .powerUp trivial State.reset false

theorem State.reset_queueBounded : State.reset.queueBounded := ⟨Nat.zero_le 32, Nat.zero_le 28⟩

theorem State.reset_copyIsHead : State.reset.copyIsHead := fun _ _ exchange => by cases exchange

theorem State.reset_modesAgree : State.reset.modesAgree := by
  have off (c : Corner) : (State.reset.vd.get c).state = .off := by rw [State.reset_vd]; rfl
  refine ⟨fun c => ?_, ?_, Nat.zero_le 2, fun _ => Nat.zero_le 1⟩
  · rw [off]; rfl
  · simp only [State.faultedDrivers, off]
    rfl

theorem State.reset_configured : State.reset.configured := fun counts => by cases counts

/-- No group is SET, and the variant record is not written. -/
theorem State.reset_contentsPass : State.reset.contentsPass := by
  refine ⟨?_, ?_, ?_, ?_, ?_, ?_⟩ <;> exact fun _ set => by cases set

theorem State.reset_setpointsAgree : State.reset.setpointsAgree := fun c => by
  rw [State.reset_vd]
  exact ⟨rfl, Nat.zero_le _⟩

theorem State.reset_trimsBounded : State.reset.trimsBounded := fun c => (trimsIn_rule.keeps.reset c).1

/-! ## The invariants at reset: the profile selection and the store -/

theorem State.reset_selectionAgrees : State.reset.selectionAgrees :=
  State.selectionAgrees_of_complete rfl fun c => by rw [State.reset_cc]; rfl

theorem State.reset_pendingAgrees : State.reset.pendingAgrees := fun pending => absurd rfl pending

theorem Store.reset_sound : Store.reset.sound := by
  refine ⟨Nat.zero_le 64, List.nodup_nil, List.not_mem_nil, fun t => ?_, fun t => ?_,
    fun _ mem => absurd mem List.not_mem_nil⟩ <;> simp

theorem Store.reset_placed : Store.reset.placed := ⟨fun _ mem => absurd mem List.not_mem_nil, List.nodup_nil⟩

theorem Store.reset_named : Store.reset.named := ⟨List.nodup_nil, fun _ mem => absurd mem List.not_mem_nil⟩

theorem Store.reset_ordered : Store.reset.ordered := fun t => by simp

/-- The empty list has one arrangement, itself. -/
theorem Store.reset_arranged : Store.reset.arranged := fun t => by
  rw [Store.reset_list]
  exact ⟨fun ws perm _ => (List.perm_nil.1 perm).symm, fun _ => rfl⟩

/-- Settles O25: each invariant from the full-reset values, or because every change keeps it. -/
theorem invariantsHoldAtReset : Obligations.InvariantsHoldAtReset := by
  obtain ⟨locks, preview, passage⟩ := State.travelAgrees_keeps.reset
  exact ⟨State.reset_queueBounded, State.reset_copyIsHead, State.reset_modesAgree, State.reset_configured,
    State.reset_contentsPass, State.reset_setpointsAgree, State.reset_trimsBounded, heldIsLast_rule.keeps.reset,
    State.reset_selectionAgrees, State.reset_pendingAgrees, locks, preview, passage, Store.reset_sound,
    Store.reset_placed, Store.reset_named, Store.reset_ordered, Store.reset_arranged⟩

end Sys2Proof.Machine
end

section
/-! The configuration store without the profile selection: which operations leave the groups, the lock set and the variant
record as they were, and so which commands can change them (R177, R184, R186). -/

namespace Sys2Proof.Machine

/-! ## The groups, the lock set and the variant record -/

/-- A configuration without its profile selection: the groups, the lock set and the variant record. -/
def Cfs.groups (f : Cfs) : Cfs := f.selecting Cfs.reset

theorem Cfs.groups_of_selecting {f g : Cfs} (h : g = f.selecting g) : g.groups = f.groups := by
  rw [h]
  rfl

theorem Cfs.contents_of_groups {f g : Cfs} (h : g.groups = f.groups) (i : GroupId) : g.contents i = f.contents i := by
  have read (e : Cfs) : e.contents i = e.groups.contents i := by cases i <;> rfl
  rw [read, h, ← read]

theorem Cfs.locks_of_groups {f g : Cfs} (h : g.groups = f.groups) : g.locks = f.locks :=
  show g.groups.locks = f.groups.locks by rw [h]

theorem Cfs.variant_of_groups {f g : Cfs} (h : g.groups = f.groups) : g.variant = f.variant :=
  show g.groups.variant = f.groups.variant by rw [h]

/-! ## The profile switch (SwitchOps) -/

section Operations

variable (s : State) (c : Corner)

@[simp] theorem State.completeSwitch_groups : s.completeSwitch.cfs.groups = s.cfs.groups := by
  unfold State.completeSwitch
  split
  · rfl
  · split <;> rfl

@[simp] theorem State.switchCorner_groups : (s.switchCorner c).cfs.groups = s.cfs.groups := by
  simp [State.switchCorner]

@[simp] theorem State.driverLeft_groups (former : DriverState) :
    (s.driverLeft c former).cfs.groups = s.cfs.groups := by
  unfold State.driverLeft
  split
  · exact s.switchCorner_groups c
  · rfl

@[simp] theorem State.acceptSwitch_groups (p : ProfileName) : (s.acceptSwitch p).cfs.groups = s.cfs.groups := by
  cases mode : s.mdc.mode with
  | config | standby =>
    simp only [State.acceptSwitch, mode]
    rfl
  | starting | run =>
    simp only [State.acceptSwitch, mode, State.beginSwitch_eq, State.completeSwitch_groups]
    rfl
  | safe => simp only [State.acceptSwitch, mode]

@[simp] theorem State.switchAtStandby_groups : s.switchAtStandby.cfs.groups = s.cfs.groups := by
  cases pending : s.cfs.pendingProfile with
  | none => rw [State.switchAtStandby_idle pending]
  | some p =>
    rw [State.switchAtStandby_eq pending, State.completeSwitch_groups]
    rfl

/-! ## The drivers and the changes of mode (DriverOps, ModeOps) -/

@[simp] theorem State.enterHold_groups : (s.enterHold c).cfs.groups = s.cfs.groups := by
  simp [State.enterHold]

@[simp] theorem State.armedToRun_groups : (s.armedToRun c).cfs.groups = s.cfs.groups := by
  simp only [State.armedToRun]
  split
  · split <;> simp
  · rfl

@[simp] theorem State.enterRun_groups : s.enterRun.cfs.groups = s.cfs.groups := by
  simp only [State.enterRun, State.makeModeReport_frame]
  exact foldl_keeps (g := fun u : State => u.cfs.groups) (fun u e => u.armedToRun_groups e) corners _

@[simp] theorem State.enterStandby_groups : s.enterStandby.cfs.groups = s.cfs.groups := by
  rw [State.enterStandby_cfs, State.switchAtStandby_groups]

@[simp] theorem State.runIfChecked_groups : s.runIfChecked.cfs.groups = s.cfs.groups := by
  unfold State.runIfChecked
  split
  · exact s.enterRun_groups
  · rfl

@[simp] theorem State.enterFaulted_groups (kind : FaultKind) (measured : Nat) :
    (s.enterFaulted c kind measured).cfs.groups = s.cfs.groups := by
  simp only [State.enterFaulted, State.escalate]
  split <;> simp

/-! ## The samples, the expiries and the completions (Drivers) -/

@[simp] theorem State.sample_groups (current : Nat) : (s.sample c current).cfs.groups = s.cfs.groups := by
  simp only [State.sample]
  split
  · simp
  · split <;> simp

@[simp] theorem State.trackingExpires_groups : (s.trackingExpires c).cfs.groups = s.cfs.groups := by
  simp only [State.trackingExpires]
  split <;> simp

@[simp] theorem State.rechecked_groups : (s.rechecked c).cfs.groups = s.cfs.groups := by
  simp only [State.rechecked]
  split <;> simp

@[simp] theorem State.checkCompletes_groups (resistance : Nat) :
    (s.checkCompletes c resistance).cfs.groups = s.cfs.groups := by
  simp only [State.checkCompletes, State.checkPassed]
  split
  · simp
  · simp
  · split <;> simp [State.armed]

@[simp] theorem State.trimCompletes_groups (t : Trim) (resistance : Nat) :
    (s.trimCompletes c t resistance).cfs.groups = s.cfs.groups := by
  simp only [State.trimCompletes, State.trimPassed, State.leaveTrim]
  split
  · simp
  · simp
  · split <;> split <;> simp

/-! ## RESTART, and the admission of a PROFILE report -/

@[simp] theorem State.applyRestart_groups : s.applyRestart.cfs.groups = s.cfs.groups := rfl

@[simp] theorem State.emptyMarker_groups (m : Marker) : (s.emptyMarker m).cfs.groups = s.cfs.groups := by
  cases m with
  | passage =>
    simp only [State.emptyMarker]
    split <;> rfl
  | fault _ | mode | lock _ | profile | condition _ _ => rfl

end Operations

/-! ## What the commands can do to the groups, the lock set and the variant record -/

/-- A property of the groups, the lock set and the variant record is kept by every command that is no full reset, once the
three requests that can write one of them keep it. -/
theorem KeepsIn.ofGroups {A : Instr → Prop} {Q : Cfs → Prop} (notReset : ∀ cause, ¬A (.fullReset cause))
    (setGroup : ∀ n b, A (.setGroup n b) → ∀ (s : State) g x, Q s.cfs.groups → s.setGroupFinding g = .ok →
      s.readContents g b = some x → Q (s.cfs.store g x).groups)
    (setLocks : ∀ b, A (.setLocks b) → ∀ (s : State) locks, Q s.cfs.groups → Q ({ s.cfs with locks }).groups)
    (writeVariant : ∀ code m, A (.writeVariant code m) → ∀ (s : State), Q s.cfs.groups → s.variantFinding m.toNat = .ok →
      Q (s.cfs.writeVariant code m.toNat).groups) :
    KeepsIn A fun s => Q s.cfs.groups where
  outer _ _ _ _ h := h
  resumes _ h _ _ := h
  setGroup n b a s g x h _ finding := setGroup n b a s g x h finding
  setLocks b a s locks h := setLocks b a s locks h
  writeVariant code m a s h finding := writeVariant code m a s h finding
  start _ _ h _ := by simpa using h
  standby _ _ h _ := by simpa using h
  restart _ _ h := by simpa using h
  motion _ _ _ _ _ h := by simpa using h
  preview _ _ _ _ _ h _ := h
  withdraw _ _ _ _ h _ _ := h
  select _ _ _ _ h _ _ _ := by simpa using h
  trimAhead _ _ _ _ _ h _ _ := by simpa using h
  recheck _ _ _ _ h _ _ := by simpa using h
  setReporting _ _ _ _ _ _ h := h
  clear _ _ _ _ _ _ h := h
  fullReset cause a := absurd a (notReset cause)
  frontPulse _ _ _ _ h _ := by simpa using h
  rearPulse _ _ _ h _ := by simpa using h
  standstill _ _ _ h _ := h
  updateInRun c raw _ s h _ := by rwa [Cfs.groups_of_selecting (s.updateInRun_groups c raw)]
  updateOutsideRun _ _ _ _ h _ := by simpa using h
  sample _ _ _ _ h := by simpa using h
  trackingExpires _ _ _ h := by simpa using h
  checkCompletes _ _ _ _ h _ := by simpa using h
  trimCompletes _ _ _ _ _ h _ _ := by simpa using h
  trimTimerExpires _ _ _ h _ := by simpa using h
  silence _ _ h _ _ := h
  emptyMarker _ _ _ h := by simpa using h

/-! ## What an accepted SET_GROUP stores (R182) -/

theorem Cfs.store_frame (f : Cfs) (g : GroupId) (x : GroupContents) :
    (f.store g x).locks = f.locks ∧ (f.store g x).variant = f.variant ∧ (f.store g x).active = f.active
      ∧ (f.store g x).pendingProfile = f.pendingProfile ∧ (f.store g x).profileMarker = f.profileMarker := by
  unfold Cfs.store
  split <;> exact ⟨rfl, rfl, rfl, rfl, rfl⟩

/-- The contents read for a group are of its kind. -/
theorem State.readContents_kind {s : State} {g : GroupId} {b : List Byte} {x : GroupContents}
    (h : s.readContents g b = some x) :
    match g with
    | .valveMaps => ∃ m, x = .valveMaps m ∧ s.readMaps b = some m
    | .profileA => ∃ p, x = .profile p ∧ readProfile b = some p
    | .profileB => ∃ p, x = .profile p ∧ readProfile b = some p
    | .geometry => ∃ q, x = .geometry q ∧ readGeometry b = some q
    | .limits => ∃ l, x = .limits l ∧ readLimits b s.cfs.variant = some l := by
  cases g <;>
  · obtain ⟨y, read, rfl⟩ := Option.map_eq_some_iff.1 h
    exact ⟨y, rfl, read⟩

/-- What is stored is the group's new contents. -/
theorem Cfs.store_same {s : State} {g : GroupId} {b : List Byte} {x : GroupContents}
    (h : s.readContents g b = some x) (f : Cfs) : (f.store g x).contents g = some x := by
  have kind := State.readContents_kind h
  cases g <;> obtain ⟨y, rfl, _⟩ := kind <;> rfl

/-- No group is changed but the one stored, and group 0 where that one is group 3. -/
theorem Cfs.store_other {s : State} {g i : GroupId} {b : List Byte} {x : GroupContents}
    (h : s.readContents g b = some x) (other : i ≠ g) (f : Cfs) :
    (f.store g x).contents i = if g = .geometry ∧ i = .valveMaps then none else f.contents i := by
  have kind := State.readContents_kind h
  cases g <;> obtain ⟨y, rfl, _⟩ := kind <;> cases i <;> simp_all [Cfs.store, Cfs.contents]

end Sys2Proof.Machine
end

section
/-! The requests of chapter 10: the judgement of each, one equation per finding, the group state that each leaves, and the
statements of the family that they settle. -/

namespace Sys2Proof.Machine

/-! ## What the arrival of a frame leaves to be judged -/

section Delivered

variable (s : State)

theorem State.delivered_cfs : s.delivered.cfs = s.cfs := by simp

theorem State.groupsSet_congr {s t : State} (h : t.cfs = s.cfs) : t.groupsSet = s.groupsSet := by
  unfold State.groupsSet
  rw [h]

theorem State.groupInUse_congr {s t : State} (mode : t.mdc.mode = s.mdc.mode) (cc : t.cc = s.cc)
    (pending : t.cfs.pendingProfile = s.cfs.pendingProfile) (g : GroupId) : t.groupInUse g = s.groupInUse g := by
  cases g <;> simp only [State.groupInUse, State.profileInUse, mode, cc, pending]

theorem State.groupProtected_congr {s t : State} (locks : t.cfs.locks = s.cfs.locks) (mode : t.mdc.mode = s.mdc.mode)
    (cc : t.cc = s.cc) (pending : t.cfs.pendingProfile = s.cfs.pendingProfile) (g : GroupId) :
    t.groupProtected g = s.groupProtected g := by
  rw [State.groupProtected, State.groupProtected, locks, State.groupInUse_congr mode cc pending]

@[simp] theorem State.delivered_groupsSet : s.delivered.groupsSet = s.groupsSet :=
  State.groupsSet_congr s.delivered_cfs

@[simp] theorem State.delivered_groupInUse (g : GroupId) : s.delivered.groupInUse g = s.groupInUse g :=
  State.groupInUse_congr (by simp) (by simp) (by simp) g

@[simp] theorem State.delivered_setGroupFinding (g : GroupId) : s.delivered.setGroupFinding g = s.setGroupFinding g := by
  simp [State.setGroupFinding, State.groupProtected]

@[simp] theorem State.delivered_readContents (g : GroupId) (b : List Byte) :
    s.delivered.readContents g b = s.readContents g b := by
  cases g <;> simp [State.readContents, State.readMaps, State.mapCap]

@[simp] theorem State.delivered_variantFinding (cap : Nat) : s.delivered.variantFinding cap = s.variantFinding cap := by
  simp [State.variantFinding]

end Delivered

/-! ## IDENTIFY (R187) -/

/-- Settles O12: IDENTIFY is judged in every mode alike, and its body is the part code, the revision and the record. -/
theorem identifyReportsPartAndVariant : Obligations.IdentifyReportsPartAndVariant := by
  refine ⟨fun s delivers => ?_, rfl, fun v => rfl⟩
  have taken : exec .identify s = .next (s.delivered.place (.reply (.identify s.delivered.cfs.variant))) :=
    congrArg Host.Outcome.next (State.takeRequest_delivers delivers judgeIdentify)
  rw [taken, State.delivered_cfs]

/-! ## Group numbers (R177) -/

theorem groupOf_of_four_lt {n : Byte} (h : 4 < n.toNat) : groupOf n = none := by
  obtain ⟨not0, not1, not2, not3, not4⟩ : n ≠ 0 ∧ n ≠ 1 ∧ n ≠ 2 ∧ n ≠ 3 ∧ n ≠ 4 := by bv_omega
  rw [groupOf, if_neg not0, if_neg not1, if_neg not2, if_neg not3, if_neg not4]

theorem exists_groupOf_of_le_four {n : Byte} (h : n.toNat ≤ 4) : ∃ g, groupOf n = some g := by
  obtain rfl | rfl | rfl | rfl | rfl : n = 0 ∨ n = 1 ∨ n = 2 ∨ n = 3 ∨ n = 4 := by bv_omega
  · exact ⟨.valveMaps, rfl⟩
  · exact ⟨.profileA, rfl⟩
  · exact ⟨.profileB, rfl⟩
  · exact ⟨.geometry, rfl⟩
  · exact ⟨.limits, rfl⟩

/-! ## READ_GROUP (R183) -/

/-- A delivered READ_GROUP is judged, and its reply placed. -/
theorem exec_readGroup {s : State} (h : s.delivers) (n : Byte) :
    exec (.readGroup n) s =
      .next ((judgeReadGroup n s.delivered).1.place (.reply (judgeReadGroup n s.delivered).2)) :=
  congrArg Host.Outcome.next (State.takeRequest_delivers h (judgeReadGroup n))

theorem judgeReadGroup_range {n : Byte} (h : groupOf n = none) (s : State) :
    judgeReadGroup n s = (s, .readGroup .range n false false none) := by
  simp only [judgeReadGroup, h]

theorem judgeReadGroup_group {n : Byte} {g : GroupId} (h : groupOf n = some g) (s : State) :
    judgeReadGroup n s = (s, .readGroup .ok n (s.cfs.locks.get g) (s.groupInUse g) (s.cfs.contents g)) := by
  simp only [judgeReadGroup, h]

/-- Settles O16: the two findings of R183, and the contents of each group by its constructor. -/
theorem readGroupReportsTheGroup : Obligations.ReadGroupReportsTheGroup := by
  refine ⟨fun s n delivers => ⟨fun outside => ⟨false, false, ?_⟩, fun inside => ?_⟩,
    fun f => ⟨rfl, rfl, rfl, rfl, rfl⟩⟩
  · rw [exec_readGroup delivers, judgeReadGroup_range (groupOf_of_four_lt outside)]
  · obtain ⟨g, named⟩ := exists_groupOf_of_le_four inside
    refine ⟨g, named, ?_⟩
    rw [exec_readGroup delivers, judgeReadGroup_group named, State.delivered_groupInUse, State.delivered_cfs]

/-! ## SET_LOCKS (R185) -/

/-- A delivered SET_LOCKS is judged, and its reply placed. -/
theorem exec_setLocks {s : State} (h : s.delivers) (b : Byte) :
    exec (.setLocks b) s = .next ((judgeSetLocks b s.delivered).1.place (.reply (judgeSetLocks b s.delivered).2)) :=
  congrArg Host.Outcome.next (State.takeRequest_delivers h (judgeSetLocks b))

theorem State.removesLock_iff {s : State} {new : PerGroup Bool} :
    s.removesLock new = true ↔ ∃ g, s.cfs.locks.get g = true ∧ new.get g = false := by
  have all (g : GroupId) : g ∈ groupIds := by cases g <;> decide
  simp only [State.removesLock, List.any_eq_true, Bool.and_eq_true, Bool.not_eq_true', all, true_and]

section JudgeSetLocks

variable {s : State} {b : Byte} {new : PerGroup Bool}

theorem judgeSetLocks_range (h : groupSetOf b = none) : judgeSetLocks b s = (s, .setLocks .range s.cfs.locks) := by
  simp only [judgeSetLocks, h]

theorem judgeSetLocks_mode (h : groupSetOf b = some new) (removes : s.removesLock new = true)
    (notConfig : s.mdc.mode ≠ .config) : judgeSetLocks b s = (s, .setLocks .mode s.cfs.locks) := by
  simp only [judgeSetLocks, h, if_pos (And.intro removes notConfig)]

theorem judgeSetLocks_accepts (h : groupSetOf b = some new)
    (allowed : ¬(s.removesLock new = true ∧ s.mdc.mode ≠ .config)) :
    judgeSetLocks b s = (s.setCfs { s.cfs with locks := new }, .setLocks .ok new) := by
  simp only [judgeSetLocks, h, if_neg allowed]

end JudgeSetLocks

/-- Settles O17: the three findings of R185 in turn. -/
theorem setLocksReplacesTheLockSet : Obligations.SetLocksReplacesTheLockSet := by
  intro s b delivers new
  have cfs := s.delivered_cfs
  have mode : s.delivered.mdc.mode = s.mdc.mode := by simp
  rw [exec_setLocks delivers, ← cfs, ← mode]
  have named (inside : b.toNat < 32) : groupSetOf b = some new := if_pos inside
  refine ⟨fun outside => ?_, fun inside removes notConfig => ?_, fun inside allowed => ?_⟩
  · rw [judgeSetLocks_range (if_neg (Nat.not_lt.2 outside))]
  · rw [judgeSetLocks_mode (named inside) (State.removesLock_iff.2 removes) notConfig]
  · rw [judgeSetLocks_accepts (named inside)]
    rintro ⟨removes, notConfig⟩
    obtain ⟨g, locked, absent⟩ := State.removesLock_iff.1 removes
    have stays := allowed.resolve_right notConfig g locked
    simp [absent] at stays

/-! ## SET_GROUP (R181, R182) -/

/-- A delivered SET_GROUP of a permitted length is judged, and its reply placed. -/
theorem exec_setGroup {s : State} (h : s.delivers) {b : List Byte}
    (permitted : RequestKind.permits .setGroup (b.length + 1) = true) (n : Byte) :
    exec (.setGroup n b) s =
      .next ((judgeSetGroup n b s.delivered).1.place (.reply (judgeSetGroup n b s.delivered).2)) :=
  congrArg Host.Outcome.next
    ((State.takeRequestOfLength_permitted s permitted _).trans (State.takeRequest_delivers h (judgeSetGroup n b)))

theorem GroupId.hardware_iff {g : GroupId} : g.hardware = true ↔ g = .valveMaps ∨ g = .geometry ∨ g = .limits := by
  cases g <;> simp [GroupId.hardware]

section SetGroup

variable {s : State} {g : GroupId} {b : List Byte}

theorem State.setGroup_refuses {code : ReplyCode} (finding : s.setGroupFinding g = code) (refused : code ≠ .ok) :
    s.setGroup g b = (s, code) := by
  unfold State.setGroup
  split
  · rename_i ok _
    exact absurd (finding.symm.trans ok) refused
  · rename_i ok _
    exact absurd (finding.symm.trans ok) refused
  · rw [finding]

theorem State.setGroup_range (finding : s.setGroupFinding g = .ok) (read : s.readContents g b = none) :
    s.setGroup g b = (s, .range) := by
  simp only [State.setGroup, finding, read]

theorem State.setGroup_stores {x : GroupContents} (finding : s.setGroupFinding g = .ok)
    (read : s.readContents g b = some x) : s.setGroup g b = (s.setCfs (s.cfs.store g x), .ok) := by
  simp only [State.setGroup, finding, read]

/-- What SET_GROUP has found of a group that it may set: findings 2 to 6 do not hold (R181). -/
theorem State.setGroupFinding_ok (h : s.setGroupFinding g = .ok) :
    s.mdc.mode ≠ .safe ∧ ¬(g.hardware = true ∧ (s.mdc.mode = .starting ∨ s.mdc.mode = .run))
      ∧ ¬s.groupProtected g = true ∧ ¬(g = .geometry ∧ s.cfs.valveMaps.isSome = true ∧ s.cfs.locks.valveMaps = true)
      ∧ ¬(g = .valveMaps ∧ s.cfs.geometry = none) := by
  unfold State.setGroupFinding at h
  split at h
  · cases h
  split at h
  · cases h
  split at h
  · cases h
  split at h
  · cases h
  split at h
  · cases h
  exact ⟨‹_›, ‹_›, ‹_›, ‹_›, ‹_›⟩

end SetGroup

/-- Settles O13: the findings of R181 in turn, and what is stored by the laws of `Cfs.store`. -/
theorem setGroupJudgesAndReplaces : Obligations.SetGroupJudgesAndReplaces := by
  refine ⟨fun s n b delivers permitted => ?_, fun s g b x read => ⟨Cfs.store_same read s.cfs,
    fun i other => Cfs.store_other read other s.cfs, s.cfs.store_frame g x⟩, State.groupsSet_get⟩
  intro refuse
  rw [exec_setGroup delivers permitted]
  refine ⟨fun outside => ?_, fun g named => ?_⟩
  · simp only [judgeSetGroup, groupOf_of_four_lt outside, State.delivered_groupsSet]
    rfl
  simp only [judgeSetGroup, named, ← GroupId.hardware_iff]
  have refused {code : ReplyCode} (finding : s.setGroupFinding g = code) (other : code ≠ .ok) :
      Host.Outcome.next ((s.delivered.setGroup g b).1.place
        (.reply (.setGroup (s.delivered.setGroup g b).2 n (s.delivered.setGroup g b).1.groupsSet)))
        = (.next (refuse code) : Host.Outcome State Fault Refusal) := by
    rw [State.setGroup_refuses (by rw [State.delivered_setGroupFinding, finding]) other, State.delivered_groupsSet]
  split
  · rename_i safe
    exact refused (by rw [State.setGroupFinding, if_pos safe]) (by decide)
  rename_i notSafe
  split
  · rename_i counting
    exact refused (by rw [State.setGroupFinding, if_neg notSafe, if_pos counting]) (by decide)
  rename_i settable
  split
  · rename_i held
    exact refused (by rw [State.setGroupFinding, if_neg notSafe, if_neg settable, if_pos held]) (by decide)
  rename_i free
  split
  · rename_i unsets
    exact refused (by rw [State.setGroupFinding, if_neg notSafe, if_neg settable, if_neg free, if_pos unsets])
      (by decide)
  rename_i unlocked
  split
  · rename_i early
    exact refused (by rw [State.setGroupFinding, if_neg notSafe, if_neg settable, if_neg free, if_neg unlocked,
      if_pos early]) (by decide)
  rename_i inOrder
  have finding : s.delivered.setGroupFinding g = .ok := by
    rw [State.delivered_setGroupFinding, State.setGroupFinding, if_neg notSafe, if_neg settable, if_neg free,
      if_neg unlocked, if_neg inOrder]
  have read := s.delivered_readContents g b
  cases contents : s.readContents g b with
  | none => rw [State.setGroup_range finding (read.trans contents), State.delivered_groupsSet]
  | some x =>
    rw [State.setGroup_stores finding (read.trans contents), State.delivered_cfs]
    rfl

/-! ## WRITE_VARIANT (R186) -/

/-- A delivered WRITE_VARIANT is judged, and its reply placed. -/
theorem exec_writeVariant {s : State} (h : s.delivers) (code : BitVec 64) (cls : Half) :
    exec (.writeVariant code cls) s =
      .next ((judgeWriteVariant code cls s.delivered).1.place (.reply (judgeWriteVariant code cls s.delivered).2)) :=
  congrArg Host.Outcome.next (State.takeRequest_delivers h (judgeWriteVariant code cls))

theorem ValveMap.currentsAtMost_iff {m : ValveMap} {cap : Nat} :
    m.currentsAtMost cap = true ↔ (∀ p ∈ m.points, p.current ≤ cap) ∧ m.holdCurrent ≤ cap := by
  simp only [ValveMap.currentsAtMost, Bool.and_eq_true, List.all_eq_true, decide_eq_true_eq]

theorem Cfs.mapsExceed_iff {f : Cfs} {cap : Nat} :
    f.mapsExceed cap = true ↔ ∃ v, f.valveMaps = some v ∧ ∃ m ∈ v.maps, ¬m.currentsAtMost cap = true := by
  simp [Cfs.mapsExceed, Option.any_eq_true]

theorem Cfs.thresholdBelow_iff {f : Cfs} {cap : Nat} :
    f.thresholdBelow cap = true ↔ ∃ l, f.limits = some l ∧ l.overcurrent < cap + 100 := by
  simp [Cfs.thresholdBelow, Option.any_eq_true]

theorem Cfs.variantLocked_iff {f : Cfs} {cap : Nat} :
    f.variantLocked cap = true ↔
      (f.mapsExceed cap = true ∧ f.locks.valveMaps = true) ∨ (f.thresholdBelow cap = true ∧ f.locks.limits = true) := by
  simp only [Cfs.variantLocked, Bool.or_eq_true, Bool.and_eq_true]

theorem capClasses_contains_iff {cap : Nat} : capClasses.contains cap = true ↔ cap = 1200 ∨ cap = 1400 ∨ cap = 1600 := by
  simp [capClasses]

section JudgeWriteVariant

variable {s : State} {code : BitVec 64} {cls : Half}

theorem judgeWriteVariant_refuses {finding : ReplyCode} (h : s.variantFinding cls.toNat = finding)
    (refused : finding ≠ .ok) : judgeWriteVariant code cls s = (s, s.variantReply finding) := by
  simp only [judgeWriteVariant, h, if_neg refused]

theorem judgeWriteVariant_accepts (h : s.variantFinding cls.toNat = .ok) :
    judgeWriteVariant code cls s = (s.setCfs (s.cfs.writeVariant code cls.toNat),
      (s.setCfs (s.cfs.writeVariant code cls.toNat)).variantReply .ok) := by
  simp only [judgeWriteVariant, h, if_true]

/-- What WRITE_VARIANT has found of a record that it may write: findings 1 to 4 do not hold (R186). -/
theorem State.variantFinding_ok {cap : Nat} (h : s.variantFinding cap = .ok) :
    s.cfs.variant = none ∧ s.mdc.mode = .config ∧ cap ∈ capClasses ∧ ¬s.cfs.variantLocked cap = true := by
  unfold State.variantFinding at h
  split at h
  · cases h
  rename_i unwritten
  split at h
  · cases h
  rename_i config
  split at h
  · cases h
  rename_i classed
  split at h
  · cases h
  rename_i unlocked
  simp only [Option.isSome_iff_ne_none, Decidable.not_not] at unwritten
  simp only [Decidable.not_not, List.contains_iff_mem] at config classed
  exact ⟨unwritten, config, classed, unlocked⟩

/-- While the record is unwritten and the part is in CONFIG, the class and the locked groups decide. -/
theorem State.variantFinding_unwritten (unwritten : s.cfs.variant = none) (config : s.mdc.mode = .config) (cap : Nat) :
    s.variantFinding cap =
      if ¬capClasses.contains cap then .range else if s.cfs.variantLocked cap then .locked else .ok := by
  simp only [State.variantFinding, unwritten, config, Option.isSome_none, Bool.false_eq_true, if_false, ne_eq,
    not_true_eq_false]

end JudgeWriteVariant

/-- A written record is written again by no command but a full reset. -/
theorem State.variant_keeps {v : Option Variant} (written : v ≠ none) :
    KeepsIn (fun i => ∀ k, i ≠ .fullReset k) fun s => s.cfs.groups.variant = v :=
  KeepsIn.ofGroups (Q := fun f => f.variant = v) (fun cause notReset => notReset cause rfl)
    (fun _ _ _ s g x h _ _ => (s.cfs.store_frame g x).2.1.trans h)
    (fun _ _ _ _ h => h)
    (fun _ _ _ _ h finding => absurd (h.symm.trans (State.variantFinding_ok finding).1) written)

/-- Settles O18: the findings of R186 in turn, the groups that the cap breaks by `Cfs.mapsExceed_iff` and
`Cfs.thresholdBelow_iff`, and the written record by `State.variant_keeps`. -/
theorem writeVariantWritesOnce : Obligations.WriteVariantWritesOnce := by
  refine ⟨fun s code cls delivers => ?_, fun c s t stepped notReset written => ?_, fun s k => ⟨_, rfl, rfl⟩⟩
  · intro cap refuse mapsOver thresholdUnder
    have cfs := s.delivered_cfs
    have maps : mapsOver ↔ s.cfs.mapsExceed cap = true := by
      simp only [mapsOver, Cfs.mapsExceed_iff, ValveMap.currentsAtMost_iff, and_comm, ge_iff_le]
    have threshold : thresholdUnder ↔ s.cfs.thresholdBelow cap = true := Cfs.thresholdBelow_iff.symm
    have refused {finding : ReplyCode} (h : s.variantFinding cap = finding) (other : finding ≠ .ok) :
        exec (.writeVariant code cls) s = .next (refuse finding) := by
      rw [exec_writeVariant delivers,
        judgeWriteVariant_refuses (by rw [State.delivered_variantFinding, h]) other, State.variantReply, cfs,
        State.delivered_groupsSet]
    refine ⟨fun written => ?_, fun unwritten notConfig => ?_, fun unwritten config not1200 not1400 not1600 => ?_,
      fun unwritten config classed => ⟨fun locked => ?_, fun unlocked => ?_⟩⟩
    · exact refused (if_pos (Option.isSome_iff_ne_none.2 written)) (by decide)
    · exact refused (by rw [State.variantFinding, if_neg (by simp [unwritten]), if_pos notConfig]) (by decide)
    · refine refused ?_ (by decide)
      rw [State.variantFinding_unwritten unwritten config, if_pos]
      rw [capClasses_contains_iff]
      omega
    all_goals
      rw [← capClasses_contains_iff] at classed
      have finding := State.variantFinding_unwritten unwritten config cap
      rw [if_neg (not_not_intro classed)] at finding
    · rw [maps, threshold, ← Cfs.variantLocked_iff] at locked
      exact refused (finding.trans (if_pos locked)) (by decide)
    · rw [maps, threshold, ← Cfs.variantLocked_iff] at unlocked
      refine ⟨s.cfs.writeVariant code cap, ?_, rfl, fun exceeds => if_pos (maps.1 exceeds),
        fun fits => if_neg (mt maps.2 fits), fun under => if_pos (threshold.1 under), fun fits => if_neg (mt threshold.2 fits)⟩
      rw [exec_writeVariant delivers, judgeWriteVariant_accepts
        (by rw [State.delivered_variantFinding, finding, if_neg unlocked]), cfs]
      rfl
  · exact (State.variant_keeps written).exec (fun k => takenAs_ne_fullReset (notReset k)) rfl stepped

/-! ## Protection (R184, R87) -/

theorem State.profileInUse_iff {s : State} {p : ProfileName} :
    s.profileInUse p = true ↔ (s.mdc.mode = .starting ∨ s.mdc.mode = .run ∨ s.mdc.mode = .safe)
      ∧ ((∃ c, (s.cc.get c).followed = p) ∨ s.cfs.pendingProfile ≠ none) := by
  have all (c : Corner) : c ∈ corners := by cases c <;> decide
  simp only [State.profileInUse, Bool.and_eq_true, Bool.or_eq_true, PartMode.counting_iff, List.any_eq_true, beq_iff_eq,
    all, true_and, Option.isSome_iff_ne_none]

theorem State.groupProtected_iff {s : State} {g : GroupId} :
    s.groupProtected g = true ↔ s.cfs.locks.get g = true ∨ s.groupInUse g = true := by
  simp only [State.groupProtected, Bool.or_eq_true]

/-- Of the protected groups, those that are not profiles are explicitly locked (R184). -/
theorem State.locked_of_protected {s : State} {g : GroupId} (hardware : g.hardware = true)
    (held : s.groupProtected g = true) : s.cfs.locks.get g = true := by
  refine (State.groupProtected_iff.1 held).resolve_right fun used => ?_
  rcases GroupId.hardware_iff.1 hardware with rfl | rfl | rfl <;> cases used

/-- The command is a request that can change the contents of a group. -/
inductive Instr.WritesAGroup : Instr → Prop where
  | setGroup (n : Byte) (b : List Byte) : WritesAGroup (.setGroup n b)
  | writeVariant (code : BitVec 64) (cls : Half) : WritesAGroup (.writeVariant code cls)

/-- No other command that is no full reset changes the contents of a group (R177). -/
theorem State.contents_keeps (g : GroupId) (x : Option GroupContents) :
    KeepsIn (fun i => ¬Instr.WritesAGroup i ∧ ∀ k, i ≠ .fullReset k) fun s => s.cfs.groups.contents g = x :=
  KeepsIn.ofGroups (Q := fun f => f.contents g = x) (fun cause notReset => notReset.2 cause rfl)
    (fun n b a _ _ _ _ _ _ => absurd (.setGroup n b) a.1)
    (fun _ _ _ _ h => by cases g <;> exact h)
    (fun code m a _ _ _ => absurd (.writeVariant code m) a.1)

/-- No command but SET_LOCKS and a full reset changes the lock set (R185). -/
theorem State.locks_keeps (l : PerGroup Bool) :
    KeepsIn (fun i => (∀ b, i ≠ .setLocks b) ∧ ∀ k, i ≠ .fullReset k) fun s => s.cfs.groups.locks = l :=
  KeepsIn.ofGroups (Q := fun f => f.locks = l) (fun cause notReset => notReset.2 cause rfl)
    (fun _ _ _ s g x h _ _ => (s.cfs.store_frame g x).1.trans h)
    (fun b a _ _ _ => absurd rfl (a.1 b))
    (fun _ _ _ _ h _ => h)

/-- An accepted SET_GROUP leaves the contents of a protected group: it does not store it, and does not make it UNSET where it
is group 0 (R181, R182). -/
theorem State.store_protected {s : State} {g i : GroupId} {b : List Byte} {x : GroupContents}
    (held : s.groupProtected i = true) (finding : s.setGroupFinding g = .ok) (read : s.readContents g b = some x) :
    (s.cfs.store g x).contents i = s.cfs.contents i := by
  obtain ⟨_, _, free, unlocked, _⟩ := State.setGroupFinding_ok finding
  have other : i ≠ g := fun same => free (same ▸ held)
  rw [Cfs.store_other read other]
  split
  · rename_i unsets
    obtain ⟨geometry, rfl⟩ := unsets
    have locked : s.cfs.locks.valveMaps = true := State.locked_of_protected rfl held
    have unset : s.cfs.valveMaps = none := by simpa [geometry, locked] using unlocked
    rw [Cfs.contents, unset]
    rfl
  · rfl

/-- An accepted WRITE_VARIANT leaves the contents of a protected group: a locked one it does not make UNSET (R186). -/
theorem State.writeVariant_protected {s : State} {i : GroupId} {cap : Nat} (held : s.groupProtected i = true)
    (finding : s.variantFinding cap = .ok) (code : BitVec 64) :
    (s.cfs.writeVariant code cap).contents i = s.cfs.contents i := by
  obtain ⟨_, _, _, unlocked⟩ := State.variantFinding_ok finding
  rw [Cfs.variantLocked_iff] at unlocked
  cases i with
  | profileA | profileB | geometry => rfl
  | valveMaps =>
    have locked : s.cfs.locks.valveMaps = true := State.locked_of_protected rfl held
    have fits : ¬s.cfs.mapsExceed cap = true := fun exceeds => unlocked (.inl ⟨exceeds, locked⟩)
    simp only [Cfs.contents, Cfs.writeVariant, if_neg fits]
  | limits =>
    have locked : s.cfs.locks.limits = true := State.locked_of_protected rfl held
    have fits : ¬s.cfs.thresholdBelow cap = true := fun below => unlocked (.inr ⟨below, locked⟩)
    simp only [Cfs.contents, Cfs.writeVariant, if_neg fits]

/-- A protected group stays protected, with its contents, through the requests that could change it. -/
theorem State.protected_keeps (g : GroupId) (x : Option GroupContents) :
    KeepsIn Instr.WritesAGroup fun s => s.groupProtected g = true ∧ s.cfs.contents g = x where
  outer _ _ _ _ h := h
  resumes _ h _ _ := h
  setGroup _ _ _ s i y h _ finding read := by
    obtain ⟨held, contents⟩ := h
    obtain ⟨locks, _, _, pending, _⟩ := s.cfs.store_frame i y
    have kept := State.groupProtected_congr (s := s) (t := s.setCfs (s.cfs.store i y)) locks rfl rfl pending g
    exact ⟨kept.trans held, (State.store_protected held finding read).trans contents⟩
  setLocks _ a := nomatch a
  writeVariant code _ _ _ h finding := ⟨h.1, (State.writeVariant_protected h.1 finding code).trans h.2⟩
  start a := nomatch a
  standby a := nomatch a
  restart a := nomatch a
  motion _ a := nomatch a
  preview _ a := nomatch a
  withdraw _ a := nomatch a
  select _ a := nomatch a
  trimAhead _ _ a := nomatch a
  recheck _ a := nomatch a
  setReporting _ _ a := nomatch a
  clear _ _ a := nomatch a
  fullReset _ a := nomatch a
  frontPulse _ _ a := nomatch a
  rearPulse _ a := nomatch a
  standstill _ a := nomatch a
  updateInRun _ _ a := nomatch a
  updateOutsideRun _ _ a := nomatch a
  sample _ _ a := nomatch a
  trackingExpires _ a := nomatch a
  checkCompletes _ _ a := nomatch a
  trimCompletes _ _ a := nomatch a
  trimTimerExpires _ a := nomatch a
  silence a := nomatch a
  emptyMarker a := nomatch a

/-- Settles O19: the two requests that write a group refuse a protected one, by `State.protected_keeps`; no other command
changes a group, and none but SET_LOCKS the lock set. -/
theorem protectedGroupsDoNotChange : Obligations.ProtectedGroupsDoNotChange := by
  refine ⟨fun c s t stepped notReset => ⟨fun g held => ?_, fun notLocks => ?_⟩, fun s =>
    ⟨State.profileInUse_iff, State.profileInUse_iff, rfl, rfl, rfl, fun g => State.groupProtected_iff⟩⟩
  · by_cases writes : Instr.WritesAGroup (takenAs c)
    · exact ((State.protected_keeps g _).exec writes ⟨State.groupProtected_iff.2 held, rfl⟩ stepped).2
    · have groups (f : Cfs) : f.groups.contents g = f.contents g := Cfs.contents_of_groups rfl g
      rw [← groups, ← groups]
      exact (State.contents_keeps g _).exec ⟨writes, fun k => takenAs_ne_fullReset (notReset k)⟩ rfl stepped
  · exact (State.locks_keeps _).exec ⟨notLocks, fun k => takenAs_ne_fullReset (notReset k)⟩ rfl stepped

end Sys2Proof.Machine
end

section
/-! The check of every item of the configuration groups (R178 to R180, R72, R73), item by item. -/

namespace Sys2Proof.Machine

theorem within_iff {low high n : Nat} : within low high n = true ↔ low ≤ n ∧ n ≤ high := by
  simp only [within, Bool.and_eq_true, decide_eq_true_eq]

/-! ## Maps (R178) -/

/-- Along a map the currents do not rise above its first point's. -/
theorem pointsOrdered_le {p x : MapPoint} {rest : List MapPoint} (ordered : pointsOrdered (p :: rest) = true)
    (h : x ∈ p :: rest) : x.current ≤ p.current := by
  induction rest generalizing p with
  | nil =>
    obtain rfl := List.mem_singleton.1 h
    exact Nat.le_refl _
  | cons q rest ih =>
    obtain ⟨_, falls, tail⟩ := pointsOrdered_cons.1 ordered
    rcases List.mem_cons.1 h with rfl | later
    · exact Nat.le_refl _
    · exact Nat.le_trans (ih tail later) falls

/-- Of a map whose currents do not rise, the first point and the hold current decide whether a cap is kept. -/
theorem ValveMap.currentsAtMost_of_ordered {m : ValveMap} (ordered : pointsOrdered m.points = true) {cap : Nat} :
    m.currentsAtMost cap = true ↔ m.p1.current ≤ cap ∧ m.holdCurrent ≤ cap := by
  rw [ValveMap.currentsAtMost_iff]
  have first : m.p1 ∈ m.points := List.mem_cons_self
  exact and_congr_left fun _ =>
    ⟨fun all => all m.p1 first, fun low p among => Nat.le_trans (pointsOrdered_le ordered among) low⟩

theorem ValveMap.passes_iff {m : ValveMap} {cap : Nat} :
    m.passes cap = true ↔ m.p1.demand = 0 ∧ m.p9.demand = 1000 ∧ pointsOrdered m.points = true
      ∧ m.currentsAtMost cap = true ∧ within 100 800 m.coldResistance = true
      ∧ within 1 (m.coldResistance - 1) m.shortLimit = true ∧ within (m.coldResistance + 1) 9998 m.openLimit = true := by
  simp only [ValveMap.passes, Bool.and_eq_true, decide_eq_true_eq, and_assoc]

theorem ValveMap.pointsOrdered_points {m : ValveMap} :
    pointsOrdered m.points = true ↔
      m.p1.demand < m.p2.demand ∧ m.p2.current ≤ m.p1.current ∧ m.p2.demand < m.p3.demand
        ∧ m.p3.current ≤ m.p2.current ∧ m.p3.demand < m.p4.demand ∧ m.p4.current ≤ m.p3.current
        ∧ m.p4.demand < m.p5.demand ∧ m.p5.current ≤ m.p4.current ∧ m.p5.demand < m.p6.demand
        ∧ m.p6.current ≤ m.p5.current ∧ m.p6.demand < m.p7.demand ∧ m.p7.current ≤ m.p6.current
        ∧ m.p7.demand < m.p8.demand ∧ m.p8.current ≤ m.p7.current ∧ m.p8.demand < m.p9.demand
        ∧ m.p9.current ≤ m.p8.current := by
  simp only [ValveMap.points, pointsOrdered, Bool.and_eq_true, decide_eq_true_eq, and_true, and_assoc]

/-! ## Group 3, the profiles and group 4 (R179, R180, R72, R73) -/

theorem CornerGeometry.passes_iff {g : CornerGeometry} :
    g.passes = true ↔ g.low < g.high ∧ 1 ≤ g.scale ∧ g.scale ≤ 100 := by
  simp only [CornerGeometry.passes, Bool.and_eq_true, decide_eq_true_eq, within_iff]

theorem PulseLengths.passes_iff {p : PulseLengths} :
    p.passes = true ↔ 4000 ≤ p.front ∧ p.front ≤ 64000 ∧ 4000 ≤ p.rear ∧ p.rear ≤ 64000 := by
  simp only [PulseLengths.passes, Bool.and_eq_true, within_iff, and_assoc]

theorem Geometry.passes_iff {g : Geometry} :
    g.passes = true ↔
      2400 ≤ g.wheelbase ∧ g.wheelbase ≤ 3600
        ∧ (∀ t, 4000 ≤ (g.pulses.get t).front ∧ (g.pulses.get t).front ≤ 64000
          ∧ 4000 ≤ (g.pulses.get t).rear ∧ (g.pulses.get t).rear ≤ 64000)
        ∧ 8 ≤ g.lockCount ∧ g.lockCount ≤ 64 ∧ 1000 ≤ g.slipWindow ∧ g.slipWindow ≤ 20000
        ∧ 2 ≤ g.slipThreshold ∧ g.slipThreshold ≤ 20
        ∧ ∀ c, (g.corners.get c).low < (g.corners.get c).high ∧ 1 ≤ (g.corners.get c).scale
          ∧ (g.corners.get c).scale ≤ 100 := by
  have everyTrack (t : Track) : t ∈ tracks := by cases t <;> decide
  have everyCorner (c : Corner) : c ∈ Machine.corners := by cases c <;> decide
  simp only [Geometry.passes, Bool.and_eq_true, List.all_eq_true, within_iff, CornerGeometry.passes_iff,
    PulseLengths.passes_iff, everyTrack, everyCorner, true_imp_iff, and_assoc]

theorem ResponseRow.passes_iff {w : ResponseRow} :
    w.passes = true ↔ w.frontBase ≤ 1000 ∧ w.rearBase ≤ 1000 ∧ w.slope ≤ 20 ∧ w.leadExtension ≤ 500 ∧ w.trail ≤ 500
      ∧ w.roughStep ≤ 50 := by
  simp only [ResponseRow.passes, Bool.and_eq_true, within_iff, Nat.zero_le, true_and, and_assoc]

theorem Profile.passes_iff {p : Profile} :
    p.passes = true ↔
      p.floor ≤ 1000 ∧ p.floor ≤ p.ceiling ∧ p.ceiling ≤ 1000 ∧ p.gain ≤ 4000 ∧ 1 ≤ p.rateLimit ∧ p.rateLimit ≤ 1000
        ∧ 5 ≤ p.responseTime ∧ p.responseTime ≤ 60 ∧ p.threshold ≤ 15
        ∧ ∀ k, (p.rows.get k).frontBase ≤ 1000 ∧ (p.rows.get k).rearBase ≤ 1000 ∧ (p.rows.get k).slope ≤ 20
          ∧ (p.rows.get k).leadExtension ≤ 500 ∧ (p.rows.get k).trail ≤ 500 ∧ (p.rows.get k).roughStep ≤ 50 := by
  have everyKind (k : Kind) : k ∈ kinds := by cases k <;> decide
  simp only [Profile.passes, Bool.and_eq_true, List.all_eq_true, within_iff, ResponseRow.passes_iff, everyKind,
    true_imp_iff, Nat.zero_le, true_and, and_assoc]

theorem Limits.passes_iff {l : Limits} {v : Option Variant} :
    l.passes v = true ↔
      80 ≤ l.warm ∧ l.warm ≤ 160 ∧ 100 ≤ l.hot ∧ l.hot ≤ 180 ∧ l.warm + 10 ≤ l.hot
        ∧ 1000 ≤ l.overcurrent ∧ l.overcurrent ≤ 2200 ∧ (∀ w, v = some w → w.cap + 100 ≤ l.overcurrent)
        ∧ 50 ≤ l.silenceTimeout ∧ l.silenceTimeout ≤ 1000 ∧ 100 ≤ l.trimInterval ∧ l.trimInterval ≤ 2000
        ∧ 20 ≤ l.trackingBand ∧ l.trackingBand ≤ 400 ∧ 5 ≤ l.trackingWindow ∧ l.trackingWindow ≤ 100 := by
  simp only [Limits.passes, Bool.and_eq_true, decide_eq_true_eq, within_iff, Option.all_eq_true, and_assoc]

/-- Settles O14: each check by its items; of a map's currents the first is checked against the cap, and the others do not
rise above it. -/
theorem groupItemsAreChecked : Obligations.GroupItemsAreChecked := by
  refine ⟨fun m cap => ?_, fun s => rfl, fun _ => Geometry.passes_iff, fun _ => Profile.passes_iff,
    fun _ _ => Limits.passes_iff⟩
  have checks : m.passes cap = true ↔ m.p1.demand = 0 ∧ m.p9.demand = 1000 ∧ pointsOrdered m.points = true
      ∧ (m.p1.current ≤ cap ∧ m.holdCurrent ≤ cap) ∧ within 100 800 m.coldResistance = true
      ∧ within 1 (m.coldResistance - 1) m.shortLimit = true ∧ within (m.coldResistance + 1) 9998 m.openLimit = true := by
    rw [ValveMap.passes_iff]
    refine and_congr_right fun _ => and_congr_right fun _ => and_congr_right fun ordered => ?_
    rw [ValveMap.currentsAtMost_of_ordered ordered]
  simp only [checks, ValveMap.pointsOrdered_points, within_iff]
  omega

end Sys2Proof.Machine
end

section
/-! The contents of the configuration groups as bytes (R178 to R182, R199): what is read from a body is written back as it
stood, what is written is read back, and so which bytes SET_GROUP accepts. -/

namespace Sys2Proof.Machine

/-! ## Fields read and written back (R199) -/

/-- The bytes of a body that stand at `n` offsets from `o` on. -/
def bytesAt (b : List Byte) (o n : Nat) : List Byte := (List.range' o n).map (byteAt b)

theorem bytesAt_length (b : List Byte) (o n : Nat) : (bytesAt b o n).length = n := by simp [bytesAt]

theorem bytesAt_append (b : List Byte) (o m n : Nat) : bytesAt b o m ++ bytesAt b (o + m) n = bytesAt b o (m + n) := by
  rw [bytesAt, bytesAt, ← List.map_append, List.range'_append_1, bytesAt]

theorem bytesAt_all (b : List Byte) : bytesAt b 0 b.length = b := by
  refine List.ext_getElem (by simp [bytesAt]) fun i _ inside => ?_
  simp [bytesAt, byteAt, inside]

theorem bytesOfHalf_halfAt (b : List Byte) (o : Nat) : bytesOfHalf (halfAt b o) = bytesAt b o 2 := by
  have parts (x y : Byte) : bytesOfHalf (x ++ y) = [x, y] := by
    simp only [bytesOfHalf, List.cons.injEq, and_true]
    constructor
    all_goals
      apply BitVec.eq_of_toNat_eq
      rw [BitVec.extractLsb'_toNat, BitVec.toNat_append, ← Nat.shiftLeft_add_eq_or_of_lt y.isLt, Nat.shiftLeft_eq,
        Nat.shiftRight_eq_div_pow]
      omega
  exact parts _ _

theorem bytesOfNat_nat2At (b : List Byte) (o : Nat) : bytesOfNat (nat2At b o) = bytesAt b o 2 := by
  rw [← bytesOfHalf_halfAt, bytesOfNat, nat2At, BitVec.ofNat_toNat, BitVec.setWidth_eq]

theorem bytesOfInt_halfAt (b : List Byte) (o : Nat) : bytesOfInt (halfAt b o).toInt = bytesAt b o 2 := by
  rw [← bytesOfHalf_halfAt, bytesOfInt, BitVec.ofInt_toInt]

theorem byteOfNat_natAt (b : List Byte) (o : Nat) : byteOfNat (natAt b o) = byteAt b o := by
  rw [byteOfNat, natAt, BitVec.ofNat_toNat, BitVec.setWidth_eq]

theorem halfAt_of_bytes {b : List Byte} {o : Nat} {h : Half} (carried : bytesAt b o 2 = bytesOfHalf h) :
    halfAt b o = h := by
  obtain ⟨high, low⟩ : byteAt b o = h.extractLsb' 8 8 ∧ byteAt b (o + 1) = h.extractLsb' 0 8 := by
    simpa [bytesAt, List.range', bytesOfHalf] using carried
  rw [halfAt, high, low, extract_append_extract]

theorem nat2At_of_bytes {b : List Byte} {o n : Nat} (range : n < 65536) (carried : bytesAt b o 2 = bytesOfNat n) :
    nat2At b o = n := by
  rw [nat2At, halfAt_of_bytes carried, BitVec.toNat_ofNat, Nat.mod_eq_of_lt range]

theorem natAt_of_byte {b : List Byte} {o n : Nat} (range : n < 256) (carried : byteAt b o = byteOfNat n) :
    natAt b o = n := by
  rw [natAt, carried, byteOfNat, BitVec.toNat_ofNat, Nat.mod_eq_of_lt range]

theorem toInt_halfAt_of_bytes {b : List Byte} {o : Nat} {n : Int} (low : -32768 ≤ n) (high : n ≤ 32767)
    (carried : bytesAt b o 2 = bytesOfInt n) : (halfAt b o).toInt = n := by
  rw [halfAt_of_bytes carried, BitVec.toInt_ofInt, Int.bmod_eq_of_le (by omega) (by omega)]

/-- A stretch of a stretch of a body. -/
theorem bytesAt_within {b x : List Byte} {o m : Nat} (carried : bytesAt b o m = x) {i n : Nat} (inside : i + n ≤ m) :
    bytesAt b (o + i) n = (x.drop i).take n := by
  obtain ⟨k, rfl⟩ := Nat.exists_eq_add_of_le inside
  rw [← carried, Nat.add_assoc, ← bytesAt_append b o i, List.drop_left' (bytesAt_length b o i),
    ← bytesAt_append b (o + i) n, List.take_left' (bytesAt_length b (o + i) n)]

theorem byteAt_within {b x : List Byte} {o m : Nat} (carried : bytesAt b o m = x) {i : Nat} (inside : i < m) :
    byteAt b (o + i) = byteAt x i := by
  rw [← carried, byteAt, byteAt, bytesAt]
  simp [inside, byteAt]

/-! ## Group 4 (R180) -/

theorem limitsAt_bytes {b : List Byte} (h : b.length = 11) : (limitsAt b).bytes = b := by
  conv => rhs; rw [← bytesAt_all b, h]
  simp only [Limits.bytes, limitsAt, bytesOfNat_nat2At, byteOfNat_natAt]
  rfl

theorem limitsAt_of_bytes {l : Limits} {v : Option Variant} (h : l.passes v = true) : limitsAt l.bytes = l := by
  obtain ⟨_, _, _, _, _, _, _, _, _, _, _, _, _, _, _, _⟩ := Limits.passes_iff.1 h
  have warm : natAt l.bytes 0 = l.warm := natAt_of_byte (by omega) rfl
  have hot : natAt l.bytes 1 = l.hot := natAt_of_byte (by omega) rfl
  have overcurrent : nat2At l.bytes 2 = l.overcurrent := nat2At_of_bytes (by omega) rfl
  have silenceTimeout : nat2At l.bytes 4 = l.silenceTimeout := nat2At_of_bytes (by omega) rfl
  have trimInterval : nat2At l.bytes 6 = l.trimInterval := nat2At_of_bytes (by omega) rfl
  have trackingBand : nat2At l.bytes 8 = l.trackingBand := nat2At_of_bytes (by omega) rfl
  have trackingWindow : natAt l.bytes 10 = l.trackingWindow := natAt_of_byte (by omega) rfl
  rw [limitsAt, warm, hot, overcurrent, silenceTimeout, trimInterval, trackingBand, trackingWindow]

/-- The bytes found in range for group 4 are those of limits that pass. -/
theorem readLimits_iff {b : List Byte} {v : Option Variant} {l : Limits} :
    readLimits b v = some l ↔ b = l.bytes ∧ l.passes v = true := by
  rw [readLimits, Option.ite_none_right_eq_some, Option.some_inj]
  constructor
  · rintro ⟨⟨length, passes⟩, rfl⟩
    exact ⟨(limitsAt_bytes length).symm, passes⟩
  · rintro ⟨rfl, passes⟩
    rw [limitsAt_of_bytes passes]
    exact ⟨⟨rfl, passes⟩, rfl⟩

/-! ## The profiles (R72, R73, R180) -/

theorem combineOf_iff {b : Byte} {m : CombineMode} : combineOf b = some m ↔ b = byteOfNat m.code := by
  constructor
  · intro named
    unfold combineOf at named
    split at named
    · cases named
      assumption
    split at named
    · cases named
      assumption
    split at named
    · cases named
      assumption
    · cases named
  · rintro rfl
    cases m <;> rfl

theorem rowWith_bytes {b : List Byte} {o : Nat} {m : CombineMode} (named : byteAt b (o + 5) = byteOfNat m.code) :
    (rowWith b o m).bytes = bytesAt b o 11 := by
  simp only [ResponseRow.bytes, rowWith, bytesOfNat_nat2At, byteOfNat_natAt, ← named]
  rfl

theorem rowAt_bytes {b : List Byte} {o : Nat} {w : ResponseRow} (h : rowAt b o = some w) : w.bytes = bytesAt b o 11 := by
  obtain ⟨m, named, rfl⟩ := Option.map_eq_some_iff.1 h
  exact rowWith_bytes (combineOf_iff.1 named)

theorem rowAt_of_bytes {b : List Byte} {o : Nat} {w : ResponseRow} (h : w.passes = true)
    (carried : bytesAt b o 11 = w.bytes) : rowAt b o = some w := by
  obtain ⟨_, _, _, _, _, _⟩ := ResponseRow.passes_iff.1 h
  have frontBase : nat2At b o = w.frontBase :=
    nat2At_of_bytes (by omega) (bytesAt_within carried (i := 0) (by decide))
  have rearBase : nat2At b (o + 2) = w.rearBase := nat2At_of_bytes (by omega) (bytesAt_within carried (by decide))
  have slope : natAt b (o + 4) = w.slope := natAt_of_byte (by omega) (byteAt_within carried (by decide))
  have combine : combineOf (byteAt b (o + 5)) = some w.combine :=
    combineOf_iff.2 (byteAt_within carried (by decide))
  have leadExtension : nat2At b (o + 6) = w.leadExtension :=
    nat2At_of_bytes (by omega) (bytesAt_within carried (by decide))
  have trail : nat2At b (o + 8) = w.trail := nat2At_of_bytes (by omega) (bytesAt_within carried (by decide))
  have roughStep : natAt b (o + 10) = w.roughStep := natAt_of_byte (by omega) (byteAt_within carried (by decide))
  rw [rowAt, combine, Option.map_some, rowWith, frontBase, rearBase, slope, leadExtension, trail, roughStep]

theorem rowsAt_iff {b : List Byte} {rows : PerKind ResponseRow} :
    rowsAt b = some rows ↔ ∀ k : Kind, rowAt b (10 + 11 * k.code) = some (rows.get k) := by
  constructor
  · intro h k
    unfold rowsAt at h
    split at h
    · cases h
      cases k <;> assumption
    · cases h
  · intro h
    have smooth : rowAt b 10 = some rows.smooth := h .smooth
    have bump : rowAt b 21 = some rows.bump := h .bump
    have pothole : rowAt b 32 = some rows.pothole := h .pothole
    have stepUp : rowAt b 43 = some rows.stepUp := h .stepUp
    have stepDown : rowAt b 54 = some rows.stepDown := h .stepDown
    have rough : rowAt b 65 = some rows.rough := h .rough
    have unknown : rowAt b 76 = some rows.unknown := h .unknown
    simp only [rowsAt, smooth, bump, pothole, stepUp, stepDown, rough, unknown]

theorem profileWith_bytes {b : List Byte} {rows : PerKind ResponseRow} (length : b.length = 87)
    (h : rowsAt b = some rows) : (profileWith b rows).bytes = b := by
  have row (k : Kind) : (rows.get k).bytes = bytesAt b (10 + 11 * k.code) 11 := rowAt_bytes (rowsAt_iff.1 h k)
  conv => rhs; rw [← bytesAt_all b, length]
  simp only [Profile.bytes, profileWith, bytesOfNat_nat2At, byteOfNat_natAt, row]
  rfl

theorem rowsAt_of_bytes {p : Profile} (h : p.passes = true) : rowsAt p.bytes = some p.rows := by
  obtain ⟨_, _, _, _, _, _, _, _, _, rows⟩ := Profile.passes_iff.1 h
  refine rowsAt_iff.2 fun k => rowAt_of_bytes (ResponseRow.passes_iff.2 (rows k)) ?_
  cases k <;> rfl

theorem profileWith_of_bytes {p : Profile} (h : p.passes = true) : profileWith p.bytes p.rows = p := by
  obtain ⟨_, _, _, _, _, _, _, _, _, _⟩ := Profile.passes_iff.1 h
  have floor : nat2At p.bytes 0 = p.floor := nat2At_of_bytes (by omega) rfl
  have ceiling : nat2At p.bytes 2 = p.ceiling := nat2At_of_bytes (by omega) rfl
  have gain : nat2At p.bytes 4 = p.gain := nat2At_of_bytes (by omega) rfl
  have rateLimit : nat2At p.bytes 6 = p.rateLimit := nat2At_of_bytes (by omega) rfl
  have responseTime : natAt p.bytes 8 = p.responseTime := natAt_of_byte (by omega) rfl
  have threshold : natAt p.bytes 9 = p.threshold := natAt_of_byte (by omega) rfl
  rw [profileWith, floor, ceiling, gain, rateLimit, responseTime, threshold]

/-- The bytes found in range for a profile group are those of a profile that passes. -/
theorem readProfile_iff {b : List Byte} {p : Profile} : readProfile b = some p ↔ b = p.bytes ∧ p.passes = true := by
  constructor
  · intro h
    unfold readProfile at h
    split at h
    · cases h
    rename_i rows carried
    obtain ⟨⟨length, passes⟩, found⟩ := Option.ite_none_right_eq_some.1 h
    cases found
    exact ⟨(profileWith_bytes length carried).symm, passes⟩
  · rintro ⟨rfl, passes⟩
    have length : p.bytes.length = 87 := rfl
    simp only [readProfile, rowsAt_of_bytes passes, profileWith_of_bytes passes, length, passes, and_self, if_true]

/-! ## Group 3 (R179) -/

theorem substitutionOf_iff {b : Byte} {m : Substitution} : substitutionOf b = some m ↔ b = byteOfNat m.code := by
  constructor
  · intro named
    unfold substitutionOf at named
    split at named
    · cases named
      assumption
    split at named
    · cases named
      assumption
    · cases named
  · rintro rfl
    cases m <;> rfl

theorem cornerEntryAt_bytes {b : List Byte} {o : Nat} {g : CornerGeometry} (h : cornerEntryAt b o = some g) :
    g.bytes = bytesAt b o 6 := by
  obtain ⟨m, named, rfl⟩ := Option.map_eq_some_iff.1 h
  simp only [CornerGeometry.bytes, bytesOfInt_halfAt, byteOfNat_natAt, ← substitutionOf_iff.1 named]
  rfl

/-- A corner entry whose limits are 16-bit counts. -/
def CornerGeometry.counts (g : CornerGeometry) : Prop := -32768 ≤ g.low ∧ g.high ≤ 32767

theorem cornerEntryAt_counts {b : List Byte} {o : Nat} {g : CornerGeometry} (h : cornerEntryAt b o = some g) :
    g.counts := by
  obtain ⟨m, _, rfl⟩ := Option.map_eq_some_iff.1 h
  have low := (halfAt b o).le_toInt
  have high := (halfAt b (o + 2)).toInt_lt
  simp only [CornerGeometry.counts]
  omega

theorem cornerEntryAt_of_bytes {b : List Byte} {o : Nat} {g : CornerGeometry} (h : g.passes = true) (counts : g.counts)
    (carried : bytesAt b o 6 = g.bytes) : cornerEntryAt b o = some g := by
  obtain ⟨_, _, _⟩ := CornerGeometry.passes_iff.1 h
  obtain ⟨_, _⟩ := counts
  have low : (halfAt b o).toInt = g.low :=
    toInt_halfAt_of_bytes (by omega) (by omega) (bytesAt_within carried (i := 0) (by decide))
  have high : (halfAt b (o + 2)).toInt = g.high :=
    toInt_halfAt_of_bytes (by omega) (by omega) (bytesAt_within carried (by decide))
  have scale : natAt b (o + 4) = g.scale := natAt_of_byte (by omega) (byteAt_within carried (by decide))
  have substitution : substitutionOf (byteAt b (o + 5)) = some g.substitution :=
    substitutionOf_iff.2 (byteAt_within carried (by decide))
  rw [cornerEntryAt, substitution, Option.map_some, low, high, scale]

theorem cornerEntriesAt_iff {b : List Byte} {entries : PerCorner CornerGeometry} :
    cornerEntriesAt b = some entries ↔ ∀ c, cornerEntryAt b (14 + 6 * cornerCode c) = some (entries.get c) := by
  constructor
  · intro h c
    unfold cornerEntriesAt at h
    split at h
    · cases h
      cases c <;> assumption
    · cases h
  · intro h
    have fl : cornerEntryAt b 14 = some entries.fl := h .fl
    have fr : cornerEntryAt b 20 = some entries.fr := h .fr
    have rl : cornerEntryAt b 26 = some entries.rl := h .rl
    have rr : cornerEntryAt b 32 = some entries.rr := h .rr
    simp only [cornerEntriesAt, fl, fr, rl, rr]

/-- The flags byte of group 3 holds its two flags and nothing else (R199). -/
theorem byteOfNat_flags {b : Byte} (h : b.toNat < 4) :
    byteOfNat (bit (b.getLsbD 0) 0 + bit (b.getLsbD 1) 1) = b := by
  obtain rfl | rfl | rfl | rfl : b = 0 ∨ b = 1 ∨ b = 2 ∨ b = 3 := by bv_omega
  all_goals rfl

theorem flags_of_byte {b : Byte} {front rear : Bool} (carried : b = byteOfNat (bit front 0 + bit rear 1)) :
    b.toNat < 4 ∧ b.getLsbD 0 = front ∧ b.getLsbD 1 = rear := by
  subst carried
  cases front <;> cases rear <;> decide

theorem geometryWith_bytes {b : List Byte} {entries : PerCorner CornerGeometry} (length : b.length = 39)
    (flags : natAt b 38 < 4) (h : cornerEntriesAt b = some entries) : (geometryWith b entries).bytes = b := by
  have entry (c : Corner) : (entries.get c).bytes = bytesAt b (14 + 6 * cornerCode c) 6 :=
    cornerEntryAt_bytes (cornerEntriesAt_iff.1 h c)
  conv => rhs; rw [← bytesAt_all b, length]
  simp only [Geometry.bytes, geometryWith, tracks, List.flatMap_cons, List.flatMap_nil, PerTrack.get,
    bytesOfNat_nat2At, byteOfNat_natAt, entry, byteOfNat_flags flags]
  rfl

theorem cornerEntriesAt_of_bytes {g : Geometry} (h : g.passes = true) (counts : ∀ c, (g.corners.get c).counts) :
    cornerEntriesAt g.bytes = some g.corners := by
  obtain ⟨_, _, _, _, _, _, _, _, _, entries⟩ := Geometry.passes_iff.1 h
  refine cornerEntriesAt_iff.2 fun c =>
    cornerEntryAt_of_bytes (CornerGeometry.passes_iff.2 (entries c)) (counts c) ?_
  cases c <;> rfl

theorem geometryWith_of_bytes {g : Geometry} (h : g.passes = true) : geometryWith g.bytes g.corners = g := by
  obtain ⟨_, _, pulses, _, _, _, _, _, _, _⟩ := Geometry.passes_iff.1 h
  obtain ⟨_, _, _, _⟩ : 4000 ≤ g.pulses.left.front ∧ g.pulses.left.front ≤ 64000 ∧ 4000 ≤ g.pulses.left.rear
    ∧ g.pulses.left.rear ≤ 64000 := pulses .left
  obtain ⟨_, _, _, _⟩ : 4000 ≤ g.pulses.right.front ∧ g.pulses.right.front ≤ 64000 ∧ 4000 ≤ g.pulses.right.rear
    ∧ g.pulses.right.rear ≤ 64000 := pulses .right
  have wheelbase : nat2At g.bytes 0 = g.wheelbase := nat2At_of_bytes (by omega) rfl
  have leftFront : nat2At g.bytes 2 = g.pulses.left.front := nat2At_of_bytes (by omega) rfl
  have leftRear : nat2At g.bytes 4 = g.pulses.left.rear := nat2At_of_bytes (by omega) rfl
  have rightFront : nat2At g.bytes 6 = g.pulses.right.front := nat2At_of_bytes (by omega) rfl
  have rightRear : nat2At g.bytes 8 = g.pulses.right.rear := nat2At_of_bytes (by omega) rfl
  have lockCount : natAt g.bytes 10 = g.lockCount := natAt_of_byte (by omega) rfl
  have slipWindow : nat2At g.bytes 11 = g.slipWindow := nat2At_of_bytes (by omega) rfl
  have slipThreshold : natAt g.bytes 13 = g.slipThreshold := natAt_of_byte (by omega) rfl
  obtain ⟨_, front, rear⟩ := flags_of_byte (b := byteAt g.bytes 38) (front := g.separateFront) (rear := g.separateRear) rfl
  rw [geometryWith, wheelbase, leftFront, leftRear, rightFront, rightRear, lockCount, slipWindow, slipThreshold, front,
    rear]

/-- The bytes found in range for group 3 are those of a geometry that passes, its valid ranges 16-bit counts. -/
theorem readGeometry_iff {b : List Byte} {g : Geometry} :
    readGeometry b = some g ↔ b = g.bytes ∧ g.passes = true ∧ ∀ c, (g.corners.get c).counts := by
  constructor
  · intro h
    unfold readGeometry at h
    split at h
    · cases h
    rename_i entries carried
    obtain ⟨⟨length, flags, passes⟩, found⟩ := Option.ite_none_right_eq_some.1 h
    cases found
    exact ⟨(geometryWith_bytes length flags carried).symm, passes,
      fun c => cornerEntryAt_counts (cornerEntriesAt_iff.1 carried c)⟩
  · rintro ⟨rfl, passes, counts⟩
    have length : g.bytes.length = 39 := rfl
    obtain ⟨flags, _⟩ := flags_of_byte (b := byteAt g.bytes 38) (front := g.separateFront) (rear := g.separateRear) rfl
    simp only [readGeometry, cornerEntriesAt_of_bytes passes counts, geometryWith_of_bytes passes]
    exact if_pos ⟨length, flags, passes⟩

/-! ## Group 0 (R178) -/

theorem pointAt_bytes (b : List Byte) (o : Nat) : (pointAt b o).bytes = bytesAt b o 4 := by
  simp only [MapPoint.bytes, pointAt, bytesOfNat_nat2At, bytesAt_append]

theorem mapAt_bytes (b : List Byte) (o : Nat) : (mapAt b o).bytes = bytesAt b o mapLength := by
  simp only [ValveMap.bytes, ValveMap.points, List.flatMap_cons, List.flatMap_nil, List.append_nil, mapAt,
    pointAt_bytes, bytesOfNat_nat2At]
  rfl

theorem pointAt_of_bytes {b : List Byte} {o : Nat} {p : MapPoint} (demand : p.demand < 65536)
    (current : p.current < 65536) (carried : bytesAt b o 4 = p.bytes) : pointAt b o = p := by
  have first : nat2At b o = p.demand := nat2At_of_bytes demand (bytesAt_within carried (i := 0) (by decide))
  have second : nat2At b (o + 2) = p.current := nat2At_of_bytes current (bytesAt_within carried (by decide))
  rw [pointAt, first, second]

/-- The demands of the points of a map that passes end at 1,000 (R178). -/
theorem ValveMap.demand_le {m : ValveMap} {cap : Nat} (h : m.passes cap = true) {p : MapPoint} (among : p ∈ m.points) :
    p.demand ≤ 1000 := by
  obtain ⟨_, last, ordered, _⟩ := ValveMap.passes_iff.1 h
  rw [ValveMap.pointsOrdered_points] at ordered
  simp only [ValveMap.points, List.mem_cons, List.not_mem_nil, or_false] at among
  rcases among with rfl | rfl | rfl | rfl | rfl | rfl | rfl | rfl | rfl <;> omega

theorem mapAt_of_bytes {b : List Byte} {o : Nat} {m : ValveMap} {cap : Nat} (low : cap ≤ 1600) (h : m.passes cap = true)
    (carried : bytesAt b o mapLength = m.bytes) : mapAt b o = m := by
  obtain ⟨_, currents⟩ := ValveMap.passes_points h
  obtain ⟨_, _, _, capped, cold, short, opens⟩ := ValveMap.passes_iff.1 h
  rw [ValveMap.currentsAtMost_iff] at capped
  rw [within_iff] at cold short opens
  have point {i : Nat} {p : MapPoint} (among : p ∈ m.points) (inside : i + 4 ≤ mapLength)
      (written : (m.bytes.drop i).take 4 = p.bytes) : pointAt b (o + i) = p :=
    pointAt_of_bytes (Nat.lt_of_le_of_lt (ValveMap.demand_le h among) (by decide))
      (Nat.lt_of_le_of_lt (currents p among) (by omega)) ((bytesAt_within carried inside).trans written)
  have p1 : pointAt b o = m.p1 := point (i := 0) (by simp [ValveMap.points]) (by decide) rfl
  have p2 : pointAt b (o + 4) = m.p2 := point (by simp [ValveMap.points]) (by decide) rfl
  have p3 : pointAt b (o + 8) = m.p3 := point (by simp [ValveMap.points]) (by decide) rfl
  have p4 : pointAt b (o + 12) = m.p4 := point (by simp [ValveMap.points]) (by decide) rfl
  have p5 : pointAt b (o + 16) = m.p5 := point (by simp [ValveMap.points]) (by decide) rfl
  have p6 : pointAt b (o + 20) = m.p6 := point (by simp [ValveMap.points]) (by decide) rfl
  have p7 : pointAt b (o + 24) = m.p7 := point (by simp [ValveMap.points]) (by decide) rfl
  have p8 : pointAt b (o + 28) = m.p8 := point (by simp [ValveMap.points]) (by decide) rfl
  have p9 : pointAt b (o + 32) = m.p9 := point (by simp [ValveMap.points]) (by decide) rfl
  have holdCurrent : nat2At b (o + 36) = m.holdCurrent :=
    nat2At_of_bytes (by omega) (bytesAt_within carried (by decide))
  have coldResistance : nat2At b (o + 38) = m.coldResistance :=
    nat2At_of_bytes (by omega) (bytesAt_within carried (by decide))
  have shortLimit : nat2At b (o + 40) = m.shortLimit :=
    nat2At_of_bytes (by omega) (bytesAt_within carried (by decide))
  have openLimit : nat2At b (o + 42) = m.openLimit := nat2At_of_bytes (by omega) (bytesAt_within carried (by decide))
  rw [mapAt, p1, p2, p3, p4, p5, p6, p7, p8, p9, holdCurrent, coldResistance, shortLimit, openLimit]

/-- The bytes of the maps of an axle. -/
def AxleMaps.bytes (a : AxleMaps) : List Byte := a.maps.flatMap ValveMap.bytes

theorem ValveMaps.flatMap_maps (v : ValveMaps) : v.maps.flatMap ValveMap.bytes = v.front.bytes ++ v.rear.bytes :=
  List.flatMap_append

theorem AxleMaps.length_bytes (a : AxleMaps) : a.bytes.length = mapLength * a.maps.length := by
  cases a <;> rfl

section Axle

variable (b : List Byte) (o : Nat) (separate : Bool)

theorem axleAt_count : (axleAt b o separate).maps.length = mapsOfFlag separate := by
  cases separate <;> rfl

theorem axleAt_bytes : (axleAt b o separate).bytes = bytesAt b o (mapLength * mapsOfFlag separate) := by
  cases separate with
  | false => simp [AxleMaps.bytes, axleAt, AxleMaps.maps, mapAt_bytes, mapsOfFlag]
  | true =>
    simp only [AxleMaps.bytes, axleAt, AxleMaps.maps, if_true, List.flatMap_cons, List.flatMap_nil, List.append_nil,
      mapAt_bytes, bytesAt_append]
    rfl

variable {b o separate}

theorem axleAt_of_bytes {a : AxleMaps} {cap : Nat} (low : cap ≤ 1600) (count : a.maps.length = mapsOfFlag separate)
    (passes : ∀ m ∈ a.maps, m.passes cap = true) (carried : bytesAt b o (mapLength * mapsOfFlag separate) = a.bytes) :
    axleAt b o separate = a := by
  cases a with
  | shared m =>
    cases separate with
    | true => cases count
    | false =>
      have only : mapAt b o = m := mapAt_of_bytes low (passes m (by simp [AxleMaps.maps])) carried
      rw [axleAt, only]
      rfl
  | separate l r =>
    cases separate with
    | false => cases count
    | true =>
      have left : mapAt b o = l := mapAt_of_bytes low (passes l (by simp [AxleMaps.maps]))
        (bytesAt_within carried (i := 0) (by decide))
      have right : mapAt b (o + mapLength) = r := mapAt_of_bytes low (passes r (by simp [AxleMaps.maps]))
        (bytesAt_within carried (by decide))
      rw [axleAt, left, right]
      rfl

end Axle

section ValveMapsAt

variable {b : List Byte} {q : Geometry} {v : ValveMaps} {cap : Nat}

/-- The maps have the number that group 3 calls for (R178). -/
def ValveMaps.counted (v : ValveMaps) (q : Geometry) : Prop :=
  v.front.maps.length = mapsOfFlag q.separateFront ∧ v.rear.maps.length = mapsOfFlag q.separateRear

theorem valveMapsAt_bytes (length : b.length = mapLength * q.mapCount) :
    (valveMapsAt b q).maps.flatMap ValveMap.bytes = b := by
  conv => rhs; rw [← bytesAt_all b, length, Geometry.mapCount, Nat.mul_add, ← bytesAt_append, Nat.zero_add]
  rw [ValveMaps.flatMap_maps, valveMapsAt, axleAt_bytes, axleAt_bytes]

theorem ValveMaps.length_flatMap_maps (counted : v.counted q) :
    (v.maps.flatMap ValveMap.bytes).length = mapLength * q.mapCount := by
  obtain ⟨front, rear⟩ := counted
  rw [ValveMaps.flatMap_maps, List.length_append, AxleMaps.length_bytes, AxleMaps.length_bytes, front, rear,
    Geometry.mapCount, Nat.mul_add]

theorem valveMapsAt_of_bytes (low : cap ≤ 1600) (counted : v.counted q) (passes : ∀ m ∈ v.maps, m.passes cap = true) :
    valveMapsAt (v.maps.flatMap ValveMap.bytes) q = v := by
  obtain ⟨front, rear⟩ := counted
  have frontLength : v.front.bytes.length = mapLength * mapsOfFlag q.separateFront := by
    rw [AxleMaps.length_bytes, front]
  have rearLength : v.rear.bytes.length = mapLength * mapsOfFlag q.separateRear := by
    rw [AxleMaps.length_bytes, rear]
  have whole := bytesAt_all (v.front.bytes ++ v.rear.bytes)
  rw [List.length_append, frontLength, rearLength] at whole
  rw [ValveMaps.flatMap_maps, valveMapsAt]
  rw [axleAt_of_bytes low front (fun m among => passes m (List.mem_append_left _ among)),
    axleAt_of_bytes low rear (fun m among => passes m (List.mem_append_right _ among))]
  · have within := bytesAt_within whole (i := mapLength * mapsOfFlag q.separateFront)
      (n := mapLength * mapsOfFlag q.separateRear) (Nat.le_refl _)
    rwa [Nat.zero_add, List.drop_left' frontLength, ← rearLength, List.take_length, rearLength] at within
  · exact (bytesAt_within whole (i := 0) (by omega)).trans (List.take_left' frontLength)

theorem readValveMaps_some (h : readValveMaps b q cap = some v) :
    v.maps.flatMap ValveMap.bytes = b ∧ v.counted q ∧ ∀ m ∈ v.maps, m.passes cap = true := by
  rw [readValveMaps, Option.ite_none_right_eq_some, Option.some_inj, List.all_eq_true] at h
  obtain ⟨⟨length, passes⟩, rfl⟩ := h
  exact ⟨valveMapsAt_bytes length, ⟨axleAt_count _ _ _, axleAt_count _ _ _⟩, passes⟩

/-- The bytes found in range for group 0 are those of maps that pass, in the number that group 3 calls for. -/
theorem readValveMaps_iff (low : cap ≤ 1600) :
    readValveMaps b q cap = some v ↔ b = v.maps.flatMap ValveMap.bytes ∧ v.counted q
      ∧ ∀ m ∈ v.maps, m.passes cap = true := by
  constructor
  · intro h
    obtain ⟨bytes, checks⟩ := readValveMaps_some h
    exact ⟨bytes.symm, checks⟩
  · rintro ⟨rfl, counted, passes⟩
    rw [readValveMaps, valveMapsAt_of_bytes low counted passes]
    exact if_pos ⟨v.length_flatMap_maps counted, List.all_eq_true.2 passes⟩

end ValveMapsAt

/-! ## Any group -/

/-- The contents are of the group's kind and pass every check, with the number of maps that group 3 calls for and limits of
valid ranges that are 16-bit counts (R178 to R180). -/
def State.admitsContents (s : State) : GroupId → GroupContents → Prop
  | .valveMaps, .valveMaps v => ∃ q, s.cfs.geometry = some q ∧ v.counted q ∧ ∀ m ∈ v.maps, m.passes s.mapCap = true
  | .profileA, .profile p => p.passes = true
  | .profileB, .profile p => p.passes = true
  | .geometry, .geometry q => q.passes = true ∧ ∀ c, (q.corners.get c).counts
  | .limits, .limits l => l.passes s.cfs.variant = true
  | _, _ => False

theorem State.readMaps_iff {s : State} {b : List Byte} {v : ValveMaps} (low : s.mapCap ≤ 1600) :
    s.readMaps b = some v ↔ b = (GroupContents.valveMaps v).bytes ∧ s.admitsContents .valveMaps (.valveMaps v) := by
  cases set : s.cfs.geometry with
  | none => simp [State.readMaps, State.admitsContents, set]
  | some q => simp [State.readMaps, State.admitsContents, set, readValveMaps_iff low, GroupContents.bytes]

/-- What SET_GROUP finds in range is the bytes of contents that the group admits. -/
theorem State.readContents_iff {s : State} {g : GroupId} {b : List Byte} {x : GroupContents} (low : s.mapCap ≤ 1600) :
    s.readContents g b = some x ↔ b = x.bytes ∧ s.admitsContents g x := by
  cases g <;> cases x <;>
    simp [State.readContents, State.admitsContents, State.readMaps_iff low, readProfile_iff, readGeometry_iff,
      readLimits_iff, GroupContents.bytes]

theorem State.readMaps_some {s : State} {b : List Byte} {v : ValveMaps} (h : s.readMaps b = some v) :
    (GroupContents.valveMaps v).bytes = b ∧ s.admitsContents .valveMaps (.valveMaps v) := by
  unfold State.readMaps at h
  split at h
  · cases h
  rename_i q set
  obtain ⟨bytes, counted, passes⟩ := readValveMaps_some h
  exact ⟨bytes, q, set, counted, passes⟩

/-- What SET_GROUP finds in range passes every check, and its bytes are those carried. -/
theorem State.readContents_some {s : State} {g : GroupId} {b : List Byte} {x : GroupContents}
    (h : s.readContents g b = some x) : x.bytes = b ∧ s.admitsContents g x := by
  have kind := State.readContents_kind h
  cases g with
  | valveMaps =>
    obtain ⟨v, rfl, read⟩ := kind
    exact State.readMaps_some read
  | profileA | profileB =>
    obtain ⟨p, rfl, read⟩ := kind
    obtain ⟨bytes, passes⟩ := readProfile_iff.1 read
    exact ⟨bytes.symm, passes⟩
  | geometry =>
    obtain ⟨q, rfl, read⟩ := kind
    obtain ⟨bytes, checks⟩ := readGeometry_iff.1 read
    exact ⟨bytes.symm, checks⟩
  | limits =>
    obtain ⟨l, rfl, read⟩ := kind
    obtain ⟨bytes, passes⟩ := readLimits_iff.1 read
    exact ⟨bytes.symm, passes⟩

/-! ## The layout of the contents (R199) -/

theorem ResponseRow.bytes_eq (w : ResponseRow) :
    w.bytes = bytesOfNat w.frontBase ++ bytesOfNat w.rearBase ++ [byteOfNat w.slope]
      ++ (match w.combine with
        | .replace => [byteOfNat 0]
        | .max => [byteOfNat 1]
        | .min => [byteOfNat 2])
      ++ bytesOfNat w.leadExtension ++ bytesOfNat w.trail ++ [byteOfNat w.roughStep] := by
  cases combine : w.combine <;> simp [ResponseRow.bytes, combine, CombineMode.code]

theorem CornerGeometry.bytes_eq (g : CornerGeometry) :
    g.bytes = bytesOfInt g.low ++ bytesOfInt g.high ++ [byteOfNat g.scale]
      ++ (match g.substitution with
        | .none => [byteOfNat 0]
        | .axlePartner => [byteOfNat 1]) := by
  cases substitution : g.substitution <;> simp [CornerGeometry.bytes, substitution, Substitution.code]

/-- Settles O15: what is read is written back and what is written is read back, kind by kind of contents, and the layout of
each kind by its fields. -/
theorem contentsReadBackAsCarried : Obligations.ContentsReadBackAsCarried := by
  refine ⟨fun s g b x read => (State.readContents_some read).1, fun s g b x low => ?_, fun m m' => ⟨rfl, rfl⟩,
    fun v => rfl, ?_⟩
  · rw [State.readContents_iff low]
    refine and_congr_right fun _ => ?_
    cases g <;> cases x <;> simp only [State.admitsContents, ValveMaps.counted, mapsOfFlag, and_assoc, CornerGeometry.counts]
  · intro one two signed point map row entry
    have fields (n : Nat) : bytesOfNat n = two n := bytesOfNat_eq n
    have counts (n : Int) : bytesOfInt n = signed n := bytesOfInt_eq n
    have maps (m : ValveMap) : m.bytes = map m := by
      simp only [ValveMap.bytes, ValveMap.points, List.flatMap_cons, MapPoint.bytes, fields]
      rfl
    have rows (w : ResponseRow) : w.bytes = row w := by
      rw [ResponseRow.bytes_eq]
      simp only [fields]
      rfl
    have entries (g : CornerGeometry) : g.bytes = entry g := by
      rw [CornerGeometry.bytes_eq]
      simp only [counts]
      rfl
    refine ⟨fun v => congrArg v.maps.flatMap (funext maps), fun p => ?_, fun g => ?_, fun l => ?_⟩
    · simp only [GroupContents.bytes, Profile.bytes, kinds, List.flatMap_cons, List.flatMap_nil, PerKind.get, rows, fields]
      simp only [List.append_nil, List.append_assoc]
      rfl
    · simp only [GroupContents.bytes, Geometry.bytes, tracks, corners, List.flatMap_cons, List.flatMap_nil, PerTrack.get,
        PerCorner.get, entries, fields]
      simp only [List.append_nil, List.append_assoc]
      rfl
    · simp only [GroupContents.bytes, Limits.bytes, fields]
      rfl

end Sys2Proof.Machine
end

section
/-! The running part (chapters 07 to 10): its drivers in states that its mode admits, with the setpoints of those states
within the current cap, its groups SET and passing their checks; every change that a command makes keeps these together. -/

namespace Sys2Proof.Machine

/-! ## A driver in its mode, with its map, within the cap (R125) -/

/-- A driver is in a state that the mode admits, with the setpoint of that state, which is within the cap. -/
structure Vd.Fits (v : Vd) (mode : PartMode) (m : ValveMap) (cap : Nat) : Prop where
  admitted : mode.admits v.state = true
  agrees : v.setpointAgrees m
  capped : v.setpoint ≤ cap

section Fits

variable {v w : Vd} {mode : PartMode} {m : ValveMap} {cap : Nat}

/-- A change of items that no setpoint depends on. -/
theorem Vd.Fits.congr (h : v.Fits mode m cap) (state : w.state = v.state) (setpoint : w.setpoint = v.setpoint)
    (held : w.heldDemand = v.heldDemand) : w.Fits mode m cap := by
  obtain ⟨admitted, agrees, capped⟩ := h
  refine ⟨by rwa [state], ?_, by rwa [setpoint]⟩
  unfold Vd.setpointAgrees at agrees ⊢
  rwa [state, setpoint, held]

/-- A state without current has no setpoint. -/
theorem Vd.fits_atRest {st : DriverState} (admitted : mode.admits st = true) (rests : st.carriesCurrent = false) :
    (v.atRest st).Fits mode m cap := by
  refine ⟨admitted, ?_, Nat.zero_le cap⟩
  cases st with
  | off | armed | released | faulted => exact rfl
  | checking | drive | trim | hold => cases rests

/-- The check current is the least of the currents that the cap admits. -/
theorem Vd.fits_checking (admitted : mode.admits .checking = true) (low : 250 ≤ cap) : v.checking.Fits mode m cap :=
  ⟨admitted, rfl, low⟩

/-- Every current of a map is within a cap that its points keep. -/
theorem ValveMap.current_le (h : m.currentsAtMost cap = true) (d : Nat) : m.current d ≤ cap :=
  currentFrom_le (ValveMap.currentsAtMost_iff.1 h).1 d

theorem Vd.fits_driving (h : m.currentsAtMost cap = true) (d : Nat) : (v.driving m d).Fits .run m cap :=
  ⟨rfl, rfl, ValveMap.current_le h d⟩

theorem Vd.fits_holding (h : m.currentsAtMost cap = true) : (v.holding m).Fits .run m cap :=
  ⟨rfl, rfl, (ValveMap.currentsAtMost_iff.1 h).2⟩

/-- A trim keeps the setpoint of the state that it is started from (R139). -/
theorem Vd.Fits.trimming (h : v.Fits mode m cap) (carries : v.state = .drive ∨ v.state = .hold) (origin : TrimOrigin)
    (kind : TrimKind) : (v.trimming origin kind).Fits mode m cap := by
  obtain ⟨admitted, _, capped⟩ := h
  have run : mode = .run := by
    refine Decidable.byContradiction fun notRun => ?_
    have still := DriverState.still_of_admitted notRun admitted
    rcases carries with state | state <;> rw [state] at still <;> cases still
  exact ⟨by rw [run]; rfl, trivial, capped⟩

/-- What a start test leaves of a driver: a trim started in DRIVE or HOLD, or the driver as it was. -/
theorem Vd.Fits.told (h : v.Fits mode m cap) (quiet : Bool) :
    (v.told quiet).Fits mode m cap ∧ ((v.told quiet).state = .faulted ↔ v.state = .faulted) := by
  have heard : ({ v with quiet } : Vd).Fits mode m cap := h.congr rfl rfl rfl
  rw [Vd.told_eq]
  split
  · rename_i starts
    exact ⟨heard.trimming (.inl starts.1) _ _, by simp [Vd.trimming, starts.1]⟩
  · exact ⟨heard, Iff.rfl⟩

theorem Vd.Fits.expired (h : v.Fits mode m cap) :
    v.expired.Fits mode m cap ∧ (v.expired.state = .faulted ↔ v.state = .faulted) := by
  unfold Vd.expired
  split
  · rename_i starts
    exact ⟨h.trimming (.inl starts.1) _ _, by simp [Vd.trimming, starts.1]⟩
  split
  · rename_i starts
    exact ⟨h.trimming (.inl starts.1) _ _, by simp [Vd.trimming, starts.1]⟩
  split
  · rename_i starts
    exact ⟨h.trimming (.inr starts.1) _ _, by simp [Vd.trimming, starts.1]⟩
  · exact ⟨h, Iff.rfl⟩

end Fits

/-! ## The number of drivers in FAULTED (R160) -/

section FaultedDrivers

variable {s t : State}

theorem State.faultedDrivers_congr (h : ∀ c, (t.vd.get c).state = .faulted ↔ (s.vd.get c).state = .faulted) :
    t.faultedDrivers = s.faultedDrivers := by
  simp only [State.faultedDrivers, h]

theorem State.faultedDrivers_zero (h : ∀ c, (s.vd.get c).state ≠ .faulted) : s.faultedDrivers = 0 := by
  simp [State.faultedDrivers, h]

theorem State.faultedDrivers_eq (s : State) :
    s.faultedDrivers = (if (s.vd.get .fl).state = .faulted then 1 else 0)
      + (if (s.vd.get .fr).state = .faulted then 1 else 0) + (if (s.vd.get .rl).state = .faulted then 1 else 0) + if (s.vd.get .rr).state = .faulted then 1 else 0 := by
  simp only [State.faultedDrivers, corners, ← List.countP_eq_length_filter, List.countP_cons, List.countP_nil,
    decide_eq_true_eq]
  omega

/-- One more driver in FAULTED. -/
theorem State.faultedDrivers_set {c : Corner} {v : Vd} (vd : t.vd = s.vd.set c v) (before : (s.vd.get c).state ≠ .faulted)
    (now : v.state = .faulted) : t.faultedDrivers = s.faultedDrivers + 1 := by
  rw [State.faultedDrivers_eq, State.faultedDrivers_eq, vd]
  cases c <;> simp [before, now] <;> omega

/-- One fewer. -/
theorem State.faultedDrivers_unset {c : Corner} {v : Vd} (vd : t.vd = s.vd.set c v)
    (before : (s.vd.get c).state = .faulted) (now : v.state ≠ .faulted) : t.faultedDrivers = s.faultedDrivers - 1 := by
  rw [State.faultedDrivers_eq, State.faultedDrivers_eq, vd]
  cases c <;> simp [before, now] <;> omega

end FaultedDrivers

/-! ## What the groups alone decide (R127, R177, R178) -/

section Groups

variable {s t : State} (groups : t.cfs.groups = s.cfs.groups)

include groups

theorem State.map_congr (c : Corner) : t.map c = s.map c := by
  show (State.reset.setCfs t.cfs.groups).map c = (State.reset.setCfs s.cfs.groups).map c
  rw [groups]

theorem State.mapCap_congr : t.mapCap = s.mapCap := by
  show (State.reset.setCfs t.cfs.groups).mapCap = (State.reset.setCfs s.cfs.groups).mapCap
  rw [groups]

theorem State.contentsPass_congr : t.contentsPass ↔ s.contentsPass := by
  show (State.reset.setCfs t.cfs.groups).contentsPass ↔ (State.reset.setCfs s.cfs.groups).contentsPass
  rw [groups]

theorem State.allGroupsSet_congr : t.allGroupsSet = s.allGroupsSet := by
  show (State.reset.setCfs t.cfs.groups).allGroupsSet = (State.reset.setCfs s.cfs.groups).allGroupsSet
  rw [groups]

theorem State.configured_congr (counting : t.mdc.mode.counting = true → s.mdc.mode.counting = true)
    (h : s.configured) : t.configured := by
  intro counts
  rw [State.allGroupsSet_congr groups, Cfs.variant_of_groups groups]
  exact h (counting counts)

end Groups

/-- A corner's map is one of its axle's. -/
theorem AxleMaps.forTrack_mem (a : AxleMaps) (t : Track) : a.forTrack t ∈ a.maps := by
  cases a with
  | shared m => exact List.mem_singleton_self m
  | separate l r => cases t <;> simp [AxleMaps.forTrack, AxleMaps.maps]

theorem ValveMaps.forCorner_mem (v : ValveMaps) (c : Corner) : v.forCorner c ∈ v.maps := by
  unfold ValveMaps.forCorner
  split
  · exact List.mem_append_left _ (v.front.forTrack_mem c.track)
  · exact List.mem_append_right _ (v.rear.forTrack_mem c.track)

/-! ## The running part -/

/-- A part as it is between the changes that a command makes: what its drivers, its mode and its configuration keep
together, but for the escalation of a second fault that the Mode Controller may still have to make (R161). -/
structure State.Runs (s : State) : Prop where
  fits : ∀ c, (s.vd.get c).Fits s.mdc.mode (s.map c) s.mapCap
  counted : s.mdc.faultedCount = s.faultedDrivers
  few : s.mdc.faultedCount ≤ 2
  configured : s.configured
  contents : s.contentsPass

/-- A part as every command leaves it: with two drivers in FAULTED it is in SAFE. -/
structure State.Settled (s : State) : Prop extends s.Runs where
  escalated : s.mdc.mode ≠ .safe → s.mdc.faultedCount ≤ 1

theorem State.settled_iff {s : State} :
    s.Settled ↔ s.modesAgree ∧ s.configured ∧ s.contentsPass ∧ s.setpointsAgree := by
  constructor
  · intro h
    exact ⟨⟨fun c => (h.fits c).admitted, h.counted, h.few, h.escalated⟩, h.configured, h.contents,
      fun c => ⟨(h.fits c).agrees, (h.fits c).capped⟩⟩
  · rintro ⟨⟨admitted, counted, few, escalated⟩, configured, contents, setpoints⟩
    exact ⟨⟨fun c => ⟨admitted c, (setpoints c).1, (setpoints c).2⟩, counted, few, configured, contents⟩, escalated⟩

/-- START is accepted with every group SET and the record WRITTEN (R170). -/
theorem State.startFinding_ok_set {s : State} (h : s.startFinding = .ok) :
    s.allGroupsSet = true ∧ s.cfs.variant.isSome = true := by
  rw [State.startFinding_still (State.startFinding_ok_mode h)] at h
  split at h
  · cases h
  rename_i set
  split at h
  · cases h
  rename_i written
  exact ⟨Decidable.not_not.1 set, Option.isSome_iff_ne_none.2 written⟩

namespace State.Runs

variable {s t : State} (h : s.Runs)

include h

/-- The cap is at least the check current: the record, where it is written, holds one of the three classes (R186). -/
theorem cap_low : 250 ≤ s.mapCap := by
  obtain ⟨_, _, _, _, _, classed⟩ := h.contents
  unfold State.mapCap
  split
  · rename_i v written
    have among := classed v written
    simp only [capClasses, List.mem_cons, List.not_mem_nil, or_false] at among
    omega
  · decide

/-- While the part runs, group 0 is SET, and every map keeps the cap (R177, R178). -/
theorem map_capped (counts : s.mdc.mode.counting = true) (c : Corner) : (s.map c).currentsAtMost s.mapCap = true := by
  have set : s.cfs.valveMaps ≠ none := fun unset =>
    State.allGroupsSet_iff.1 (h.configured counts).1 .valveMaps (by simp [Cfs.contents, unset])
  obtain ⟨v, set⟩ := Option.ne_none_iff_exists'.1 set
  obtain ⟨maps, _⟩ := h.contents
  obtain ⟨_, _, _, _, passes⟩ := maps v set
  rw [State.map_set set]
  obtain ⟨_, _, _, capped, _⟩ := ValveMap.passes_iff.1 (passes _ (v.forCorner_mem c))
  exact capped

/-- In CONFIG and STANDBY every driver is in OFF. -/
theorem off (still : s.mdc.mode = .config ∨ s.mdc.mode = .standby) (c : Corner) : (s.vd.get c).state = .off := by
  have admitted := (h.fits c).admitted
  rcases still with mode | mode <;> simpa [mode, PartMode.admits] using admitted

/-- A driver with a demand of its corner is in RUN. -/
theorem run_of_takesDemand {c : Corner} (takes : (s.vd.get c).state.takesDemand = true) : s.mdc.mode = .run := by
  refine Decidable.byContradiction fun notRun => ?_
  have still := DriverState.still_of_admitted notRun (h.fits c).admitted
  simp [takes] at still

/-- A driver with current is in STARTING or RUN. -/
theorem started_of_carriesCurrent {c : Corner} (carries : (s.vd.get c).state.carriesCurrent = true) :
    s.mdc.mode = .starting ∨ s.mdc.mode = .run := by
  have admitted := (h.fits c).admitted
  cases mode : s.mdc.mode with
  | starting => exact .inl rfl
  | run => exact .inr rfl
  | config | standby =>
    simp [h.off (c := c) (by simp [mode]), DriverState.carriesCurrent] at carries
  | safe =>
    have released : (s.vd.get c).state = .released ∨ (s.vd.get c).state = .faulted := by
      simpa [mode, PartMode.admits] using admitted
    rcases released with state | state <;> rw [state] at carries <;> cases carries

/-- A change that leaves the groups. -/
theorem of_groups (groups : t.cfs.groups = s.cfs.groups)
    (fits : ∀ c, (t.vd.get c).Fits t.mdc.mode (s.map c) s.mapCap) (counted : t.mdc.faultedCount = t.faultedDrivers)
    (few : t.mdc.faultedCount ≤ 2) (configured : t.configured) : t.Runs where
  fits c := by
    rw [State.map_congr groups, State.mapCap_congr groups]
    exact fits c
  counted := counted
  few := few
  configured := configured
  contents := (State.contentsPass_congr groups).2 h.contents

/-- The faulted count stays right where it stays and no driver enters or leaves FAULTED. -/
theorem counted_of_faulted (count : t.mdc.faultedCount = s.mdc.faultedCount)
    (faulted : ∀ c, (t.vd.get c).state = .faulted ↔ (s.vd.get c).state = .faulted) :
    t.mdc.faultedCount = t.faultedDrivers := by
  rw [count, h.counted, State.faultedDrivers_congr faulted]

/-- A change of one driver, to another in FAULTED or from one that is not to one that is not. -/
theorem of_set {c : Corner} {v : Vd} (groups : t.cfs.groups = s.cfs.groups) (mode : t.mdc.mode = s.mdc.mode)
    (count : t.mdc.faultedCount = s.mdc.faultedCount) (vd : t.vd = s.vd.set c v)
    (fits : v.Fits s.mdc.mode (s.map c) s.mapCap) (faulted : v.state = .faulted ↔ (s.vd.get c).state = .faulted) :
    t.Runs := by
  refine h.of_groups groups (fun d => ?_) (h.counted_of_faulted count fun d => ?_) (count ▸ h.few)
    (State.configured_congr groups (mode ▸ id) h.configured)
  all_goals
    rw [vd]
    by_cases same : d = c
  · subst same
    rwa [PerCorner.get_set_same, mode]
  · rw [PerCorner.get_set_ne same, mode]
    exact h.fits d
  · subst same
    rwa [PerCorner.get_set_same]
  · rw [PerCorner.get_set_ne same]

/-- A change that leaves the drivers, the mode, the faulted count and the groups. -/
theorem of_same (groups : t.cfs.groups = s.cfs.groups) (mode : t.mdc.mode = s.mdc.mode)
    (count : t.mdc.faultedCount = s.mdc.faultedCount) (vd : t.vd = s.vd) : t.Runs :=
  h.of_set groups mode count (vd.trans (s.vd.set_get .fl).symm) (h.fits .fl) Iff.rfl

theorem setVd {c : Corner} {v : Vd} (fits : v.Fits s.mdc.mode (s.map c) s.mapCap)
    (faulted : v.state = .faulted ↔ (s.vd.get c).state = .faulted) : (s.setVd c v).Runs :=
  h.of_set rfl rfl rfl rfl fits faulted

/-- A driver without a fault, written so in RUN. -/
theorem setVd_run {c : Corner} {v : Vd} (run : s.mdc.mode = .run) (fits : v.Fits .run (s.map c) s.mapCap)
    (sound : (s.vd.get c).state ≠ .faulted) (now : v.state ≠ .faulted) : (s.setVd c v).Runs :=
  h.setVd (run ▸ fits) (iff_of_false now sound)

theorem driverLeft (c : Corner) (former : DriverState) : (s.driverLeft c former).Runs :=
  h.of_same (by simp) (by simp) (by simp) (by simp)

theorem setCc (c : Corner) (x : Cc) : (s.setCc c x).Runs := h.of_same rfl rfl rfl rfl

/-! ## The start tests, the samples and the update -/

theorem tellQuiet (c : Corner) (quiet : Bool) : (s.tellQuiet c quiet).Runs := by
  rw [State.tellQuiet_eq]
  obtain ⟨fits, faulted⟩ := (h.fits c).told quiet
  exact h.setVd fits faulted

theorem driveStartTest (c : Corner) : (s.driveStartTest c).Runs := by
  rw [State.driveStartTest_told]
  obtain ⟨fits, faulted⟩ := (h.fits c).told (s.vd.get c).quiet
  exact h.setVd fits faulted

theorem holdStartTest (c : Corner) : (s.holdStartTest c).Runs := by
  rw [State.holdStartTest_eq]
  split
  · rename_i starts
    exact h.setVd ((h.fits c).trimming (.inr starts.1) _ _) (by simp [Vd.trimming, starts.1])
  · exact h

theorem pullAhead (c : Corner) (count : Nat) : (s.pullAhead c count).Runs := by
  rw [State.pullAhead_eq]
  have asked : ({ s.vd.get c with pullIn := count } : Vd).Fits s.mdc.mode (s.map c) s.mapCap :=
    (h.fits c).congr rfl rfl rfl
  obtain ⟨fits, faulted⟩ := asked.told (s.vd.get c).quiet
  exact h.setVd fits faulted

theorem trimTimerExpires (c : Corner) : (s.trimTimerExpires c).Runs := by
  rw [State.trimTimerExpires_eq]
  have risen : ({ s.vd.get c with
      balance := (s.vd.get c).balance + 1, trimTimer := .running (s.trimInterval c) } : Vd).Fits s.mdc.mode (s.map c)
      s.mapCap := (h.fits c).congr rfl rfl rfl
  obtain ⟨fits, faulted⟩ := risen.expired
  exact h.setVd fits faulted

/-- A demand handed over to a driver in DRIVE gives its map current, and leaves the setpoint of one in TRIM or HOLD. -/
theorem driverHanded (run : s.mdc.mode = .run) (c : Corner) (raw : Int) :
    (s.driverHanded c raw).Fits .run (s.map c) s.mapCap ∧ (s.driverHanded c raw).state = (s.vd.get c).state := by
  have fits : (s.vd.get c).Fits .run (s.map c) s.mapCap := run ▸ h.fits c
  have capped := h.map_capped (by rw [run]; rfl) c
  unfold State.driverHanded
  split
  · refine ⟨?_, rfl⟩
    split
    · rename_i drive
      exact ⟨fits.admitted, by simp [Vd.setpointAgrees, drive], ValveMap.current_le capped _⟩
    · rename_i notDrive
      refine ⟨fits.admitted, ?_, fits.capped⟩
      have agrees := fits.agrees
      unfold Vd.setpointAgrees at agrees ⊢
      cases state : (s.vd.get c).state <;> simp_all
  · exact ⟨fits, rfl⟩

theorem updateInRun (run : s.mdc.mode = .run) (c : Corner) (raw : Int) : (s.updateInRun c raw).Runs := by
  obtain ⟨handed, state⟩ := h.driverHanded run c raw
  obtain ⟨fits, faulted⟩ := handed.told (s.pvs.inEffect c).isNone
  refine h.of_set (Cfs.groups_of_selecting (s.updateInRun_groups c raw)) (by simp) (by simp) (s.updateInRun_vd c raw)
    (run ▸ fits) ?_
  rw [faulted, state]

theorem updateOutsideRun (c : Corner) : (s.updateOutsideRun c).Runs :=
  ((h.setCc c _).tellQuiet c true).setCc c _

/-! ## The changes of mode -/

/-- Entry to STARTING from CONFIG or STANDBY: every driver leaves OFF for CHECKING (R131). -/
theorem enterStarting (ok : s.startFinding = .ok) : s.enterStarting.Runs := by
  have off := h.off (State.startFinding_ok_mode ok)
  have groups : s.enterStarting.cfs.groups = s.cfs.groups := by simp
  have mode : s.enterStarting.mdc.mode = .starting := by simp
  have count : s.enterStarting.mdc.faultedCount = s.mdc.faultedCount := by simp
  have vd (c : Corner) : s.enterStarting.vd.get c = { (s.vd.get c).checking with quiet := true } := by
    simp [State.enterStarting, Vd.atStarting, off]
  refine h.of_groups groups (fun c => ?_) (h.counted_of_faulted count fun c => ?_) (count ▸ h.few) fun _ => ?_
  · rw [vd, mode]
    exact (Vd.fits_checking (v := s.vd.get c) rfl h.cap_low).congr rfl rfl rfl
  · rw [vd, off]
    simp [Vd.checking]
  · rw [State.allGroupsSet_congr groups, Cfs.variant_of_groups groups]
    exact State.startFinding_ok_set ok

/-- Entry to SAFE: every driver is released, or stays in FAULTED (R162). -/
theorem enterSafe (counts : s.mdc.mode.counting = true) : s.enterSafe.Runs := by
  have mode : s.enterSafe.mdc.mode = .safe := by simp
  have count : s.enterSafe.mdc.faultedCount = s.mdc.faultedCount := by simp
  refine h.of_groups (by simp) (fun c => ?_) (h.counted_of_faulted count fun c => ?_) (count ▸ h.few)
    (State.configured_congr (by simp) (fun _ => counts) h.configured)
  all_goals rw [State.enterSafe_vd, PerCorner.get_of, Vd.atSafe]
  · rw [mode]
    split
    · exact (Vd.fits_atRest (st := .faulted) rfl rfl).congr rfl rfl rfl
    · exact (Vd.fits_atRest (st := .released) rfl rfl).congr rfl rfl rfl
  · split
    · rename_i faulted
      exact iff_of_true rfl faulted
    · rename_i sound
      exact iff_of_false (by simp [Vd.atRest]) sound

/-- Entry to STANDBY: every driver is in OFF (R149). -/
theorem enterStandby : s.enterStandby.Runs := by
  have mode : s.enterStandby.mdc.mode = .standby := by simp
  have vd (c : Corner) : s.enterStandby.vd.get c = (s.vd.get c).atStandby := by
    rw [State.enterStandby_vd, PerCorner.get_of]
  have none : s.enterStandby.faultedDrivers = 0 :=
    State.faultedDrivers_zero fun c => by simp [vd, Vd.atStandby, Vd.atRest]
  refine h.of_groups (by simp) (fun c => ?_) (by simp [none]) (by simp) fun counts => ?_
  · rw [vd, mode]
    exact (Vd.fits_atRest (st := .off) rfl rfl).congr rfl rfl rfl
  · rw [mode] at counts
    cases counts

/-- RESTART: every driver is as after a full reset, but for its measured current (R149). -/
theorem applyRestart : s.applyRestart.Runs := by
  have vd (c : Corner) : s.applyRestart.vd.get c = (s.vd.get c).atRestart := by simp [State.applyRestart]
  have none : s.applyRestart.faultedDrivers = 0 :=
    State.faultedDrivers_zero fun c => by simp [vd, Vd.atRestart, Vd.reset]
  refine h.of_groups (by simp) (fun c => ?_) (by rw [none]; rfl) (Nat.zero_le 2) fun counts => ?_
  · rw [vd]
    exact ⟨rfl, rfl, Nat.zero_le _⟩
  · cases counts

end State.Runs

end Sys2Proof.Machine
end

section
/-! The running part, continued: entry to RUN, and the faults with their escalation. -/

namespace Sys2Proof.Machine

/-! ## Entry to RUN (R135, R171) -/

/-- A driver in ARMED enters DRIVE or HOLD, whose currents its map keeps within the cap. -/
theorem State.armedToRun_fits {s : State} {d : Corner} (armed : (s.vd.get d).state = .armed)
    (capped : (s.map d).currentsAtMost s.mapCap = true) :
    ((s.armedToRun d).vd.get d).Fits .run (s.map d) s.mapCap ∧ ((s.armedToRun d).vd.get d).state ≠ .faulted := by
  simp only [State.armedToRun, if_pos armed]
  have entered : ((s.startTrimSchedule d).enterDriveAtFloor d).vd.get d =
      ((s.vd.get d).scheduled (s.trimInterval d)).driving (s.map d) (s.followedProfile d).floor := by
    simp [State.enterDriveAtFloor, State.startTrimSchedule]
    rfl
  split
  · have holds : (((s.startTrimSchedule d).enterDriveAtFloor d).enterHold d).vd.get d =
        (((s.startTrimSchedule d).enterDriveAtFloor d).vd.get d).holding (s.map d) := by
      simp [State.enterHold]
      rfl
    rw [holds]
    exact ⟨Vd.fits_holding capped, by simp [Vd.holding]⟩
  · rw [entered]
    exact ⟨Vd.fits_driving capped _, by simp [Vd.driving]⟩

/-- A driver on its way to RUN: in a state of RUN, or in ARMED still as one of the drivers that `l` lists. -/
def State.nearlyRun (s : State) (l : List Corner) : Prop :=
  ∀ c, (s.vd.get c).Fits .run (s.map c) s.mapCap ∨ (c ∈ l ∧ (s.vd.get c).state = .armed)

section NearlyRun

variable {s : State} (capped : ∀ c, (s.map c).currentsAtMost s.mapCap = true)

include capped

theorem State.armedToRun_faulted (d c : Corner) :
    ((s.armedToRun d).vd.get c).state = .faulted ↔ (s.vd.get c).state = .faulted := by
  by_cases armed : (s.vd.get c).state = .armed
  · by_cases same : c = d
    · subst same
      exact iff_of_false (State.armedToRun_fits armed (capped c)).2 (by simp [armed])
    · rw [State.armedToRun_vd_ne same]
  · rw [State.armedToRun_vd armed]

theorem State.armedToRun_nearlyRun {d : Corner} {l : List Corner} (h : s.nearlyRun (d :: l)) :
    (s.armedToRun d).nearlyRun l := by
  intro c
  rw [State.map_congr (s.armedToRun_groups d), State.mapCap_congr (s.armedToRun_groups d)]
  by_cases same : c = d
  · subst same
    left
    by_cases armed : (s.vd.get c).state = .armed
    · exact (State.armedToRun_fits armed (capped c)).1
    · rw [State.armedToRun_notArmed armed]
      exact (h c).resolve_right fun listed => armed listed.2
  · rw [State.armedToRun_vd_ne same]
    exact (h c).imp_right fun ⟨listed, armed⟩ => ⟨(List.mem_cons.1 listed).resolve_left same, armed⟩

theorem State.foldl_armedToRun_nearlyRun {l : List Corner} (h : s.nearlyRun l) :
    (∀ c, ((l.foldl State.armedToRun s).vd.get c).Fits .run (s.map c) s.mapCap) ∧
      ∀ c, ((l.foldl State.armedToRun s).vd.get c).state = .faulted ↔ (s.vd.get c).state = .faulted := by
  induction l generalizing s with
  | nil => exact ⟨fun c => (h c).resolve_right fun listed => List.not_mem_nil listed.1, fun _ => Iff.rfl⟩
  | cons d l ih =>
    have map (c : Corner) : (s.armedToRun d).map c = s.map c := State.map_congr (s.armedToRun_groups d) c
    have cap : (s.armedToRun d).mapCap = s.mapCap := State.mapCap_congr (s.armedToRun_groups d)
    have stays (c : Corner) : ((s.armedToRun d).map c).currentsAtMost (s.armedToRun d).mapCap = true := by
      rw [map, cap]
      exact capped c
    obtain ⟨fits, faulted⟩ := ih stays (State.armedToRun_nearlyRun capped h)
    simp only [map, cap] at fits
    exact ⟨fits, fun c => (faulted c).trans (State.armedToRun_faulted capped d c)⟩

end NearlyRun

namespace State.Runs

variable {s t : State} (h : s.Runs)

include h

/-- A driver that entry to RUN finds in STARTING: in ARMED, or checking or in FAULTED as RUN admits too. -/
theorem orderedToRun_nearlyRun (starting : s.mdc.mode = .starting) : s.orderedToRun.nearlyRun corners := by
  intro c
  obtain ⟨admitted, agrees, capped⟩ := h.fits c
  rw [State.orderedToRun_vd]
  by_cases armed : (s.vd.get c).state = .armed
  · exact .inr ⟨by cases c <;> decide, armed⟩
  · refine .inl (Vd.Fits.congr (v := s.vd.get c) ⟨?_, agrees, capped⟩ rfl rfl rfl)
    rw [starting] at admitted
    cases state : (s.vd.get c).state <;> simp_all [PartMode.admits]

theorem enterRun (starting : s.mdc.mode = .starting) : s.enterRun.Runs := by
  have mode : s.enterRun.mdc.mode = .run := by simp
  have count : s.enterRun.mdc.faultedCount = s.mdc.faultedCount := by simp
  have vd : s.enterRun.vd = (corners.foldl State.armedToRun s.orderedToRun).vd := by
    simp [State.enterRun, State.orderedToRun]
  have capped := h.map_capped (by rw [starting]; rfl)
  obtain ⟨fits, faulted⟩ := State.foldl_armedToRun_nearlyRun (s := s.orderedToRun) capped
    (h.orderedToRun_nearlyRun starting)
  refine h.of_groups (by simp) (fun c => ?_) (h.counted_of_faulted count fun c => ?_) (count ▸ h.few)
    (State.configured_congr (by simp) (fun _ => by rw [starting]; rfl) h.configured)
  · rw [vd, mode]
    exact fits c
  · rw [vd, faulted, State.orderedToRun_vd]
    exact Iff.rfl

theorem runIfChecked : s.runIfChecked.Runs := by
  unfold State.runIfChecked
  split
  · rename_i checked
    exact h.enterRun checked.1
  · exact h

/-! ## The faults (R153, R160, R161) -/

/-- A driver in FAULTED tells that the part runs. -/
theorem counting_of_faulted {c : Corner} (faulted : (s.vd.get c).state = .faulted) : s.mdc.mode.counting = true := by
  have admitted := (h.fits c).admitted
  rw [faulted] at admitted
  cases mode : s.mdc.mode with
  | config | standby => simp [mode, PartMode.admits] at admitted
  | starting | run | safe => rfl

/-- The Mode Controller answers a second fault with SAFE. -/
theorem escalate {c : Corner} (faulted : (s.vd.get c).state = .faulted) : s.escalate.Settled := by
  unfold State.escalate
  split
  · exact ⟨h.enterSafe (h.counting_of_faulted faulted), fun notSafe => absurd (by simp) notSafe⟩
  · rename_i one
    refine ⟨h.runIfChecked, fun _ => ?_⟩
    have count : s.runIfChecked.mdc.faultedCount = s.mdc.faultedCount := by simp
    omega

/-- A fault of a driver with current, the first or the second. -/
theorem tookFault (one : s.mdc.faultedCount ≤ 1) {c : Corner} (carries : (s.vd.get c).state.carriesCurrent = true)
    (kind : FaultKind) (measured : Nat) : (s.tookFault c kind measured).Runs := by
  have sound : (s.vd.get c).state ≠ .faulted := fun faulted => by rw [faulted] at carries; cases carries
  have groups : (s.tookFault c kind measured).cfs.groups = s.cfs.groups := by simp [State.tookFault]
  have mdc := s.tookFault_mdc c kind measured
  have mode : (s.tookFault c kind measured).mdc.mode = s.mdc.mode := by rw [mdc]
  have count : (s.tookFault c kind measured).mdc.faultedCount = s.mdc.faultedCount + 1 := by rw [mdc]
  have vd := s.tookFault_vd c kind measured
  refine h.of_groups groups (fun d => ?_) ?_ (by omega) (State.configured_congr groups (mode ▸ id) h.configured)
  · rw [vd, mode]
    by_cases same : d = c
    · subst same
      rw [PerCorner.get_set_same]
      have admitted : s.mdc.mode.admits .faulted = true := by
        rcases h.started_of_carriesCurrent carries with mode | mode <;> rw [mode] <;> rfl
      exact (Vd.fits_atRest (v := s.vd.get d) admitted rfl).congr rfl rfl rfl
    · rw [PerCorner.get_set_ne same]
      exact h.fits d
  · rw [count, h.counted, State.faultedDrivers_set vd sound rfl]

end State.Runs

namespace State.Settled

variable {s t : State} (h : s.Settled)

include h

/-- A change with the faulted count that the part had outside SAFE. -/
theorem of_count (runs : t.Runs) (notSafe : s.mdc.mode ≠ .safe) (count : t.mdc.faultedCount = s.mdc.faultedCount) :
    t.Settled :=
  ⟨runs, fun _ => count ▸ h.escalated notSafe⟩

/-- A change with the mode and the faulted count that the part had. -/
theorem of_runs (runs : t.Runs) (mode : t.mdc.mode = s.mdc.mode) (count : t.mdc.faultedCount = s.mdc.faultedCount) :
    t.Settled :=
  ⟨runs, fun notSafe => count ▸ h.escalated (mode ▸ notSafe)⟩

theorem of_same (groups : t.cfs.groups = s.cfs.groups) (mode : t.mdc.mode = s.mdc.mode)
    (count : t.mdc.faultedCount = s.mdc.faultedCount) (vd : t.vd = s.vd) : t.Settled :=
  h.of_runs (h.toRuns.of_same groups mode count vd) mode count

theorem enterFaulted {c : Corner} (carries : (s.vd.get c).state.carriesCurrent = true) (kind : FaultKind)
    (measured : Nat) : (s.enterFaulted c kind measured).Settled := by
  have one : s.mdc.faultedCount ≤ 1 := h.escalated fun safe => by
    rcases h.started_of_carriesCurrent carries with mode | mode <;> simp [safe] at mode
  rw [State.enterFaulted_eq]
  refine (h.tookFault one carries kind measured).escalate (c := c) ?_
  rw [State.tookFault_vd, PerCorner.get_set_same]
  rfl

end State.Settled

end Sys2Proof.Machine
end

section
/-! The running part, continued: the completions of checks and trims, the changes of the configuration, and then every change
that a command makes. -/

namespace Sys2Proof.Machine

theorem DriverState.carriesCurrent_of_watched {st : DriverState} (watched : st.watched = true) :
    st.carriesCurrent = true := by
  cases st with
  | checking | drive | trim | hold => rfl
  | off | armed | released | faulted => cases watched

theorem DriverState.carriesCurrent_of_tracked {st : DriverState} (tracked : st.tracked = true) :
    st.carriesCurrent = true := by
  cases st with
  | drive | hold => rfl
  | off | checking | armed | trim | released | faulted => cases tracked

namespace State.Runs

variable {s : State} (h : s.Runs)

include h

/-! ## The completions of checks and trims (R134, R145) -/

/-- A check in STARTING that passed (R134, R171). -/
theorem checkPassed_starting (starting : s.mdc.mode = .starting) {c : Corner} (checking : (s.vd.get c).state = .checking)
    (resistance : Nat) : (s.checkPassed c resistance).Runs := by
  rw [State.checkPassed_armed starting]
  have armed : (s.setVd c (((s.vd.get c).estimated (s.map c) resistance).atRest .armed)).Runs :=
    h.setVd (Vd.fits_atRest (by rw [starting]; rfl) rfl) (by simp [Vd.atRest, checking])
  exact Runs.runIfChecked (armed.of_same (by simp) (by simp) (by simp) (by simp))

/-- A check in RUN that passed (R134). -/
theorem checkPassed_run (run : s.mdc.mode = .run) {c : Corner} (checking : (s.vd.get c).state = .checking)
    (resistance : Nat) : (s.checkPassed c resistance).Runs := by
  have capped := h.map_capped (by rw [run]; rfl) c
  have sound : (s.vd.get c).state ≠ .faulted := by simp [checking]
  rw [State.checkPassed_run run, State.setEstimates_eq]
  by_cases hot : atOrAbove ((s.vd.get c).estimated (s.map c) resistance).temperature s.limits.hot = true
  · rw [State.rechecked_hot (v := (s.vd.get c).estimated (s.map c) resistance) checking hot]
    exact h.setVd_run run (Vd.fits_holding capped) sound (by simp [Vd.holding])
  · rw [State.rechecked_cool hot]
    exact (h.setVd_run run (Vd.fits_driving capped _) sound (by simp [Vd.driving])).setCc c _

/-- A trim that passed, by its three ends: DRIVE at the held demand, DRIVE at the floor, or HOLD (R145). -/
theorem trimPassed {c : Corner} (trims : (s.vd.get c).state = .trim) (trim : Trim) (resistance : Nat) :
    (s.trimPassed c trim resistance).Runs := by
  have run : s.mdc.mode = .run := h.run_of_takesDemand (c := c) (by rw [trims]; rfl)
  have capped := h.map_capped (by rw [run]; rfl) c
  have sound : (s.vd.get c).state ≠ .faulted := by simp [trims]
  have drives (d : Nat) : (s.setVd c ((s.vdTrimmed c trim resistance).driving (s.map c) d)).Runs :=
    h.setVd_run run (Vd.fits_driving capped d) sound (by simp [Vd.driving])
  have holds (ends : s.trimEndsInHold c trim resistance) : (s.trimPassed c trim resistance).Runs := by
    rw [State.trimPassed_hold trims ends]
    exact ((h.setVd_run run (Vd.fits_holding capped) sound (by simp [Vd.holding])).driverLeft c _).holdStartTest c
  cases origin : trim.origin with
  | drive =>
    by_cases cool : (s.map c).temperatureOf resistance < s.limits.hot
    · rw [State.trimPassed_kept origin cool]
      exact (drives _).driveStartTest c
    · exact holds (.inl ⟨origin, Int.not_lt.1 cool⟩)
  | hold =>
    by_cases cool : (s.map c).temperatureOf resistance < s.limits.warm
    · rw [State.trimPassed_floor origin cool]
      exact ((drives _).setCc c _).driveStartTest c
    · exact holds (.inr ⟨origin, Int.not_lt.1 cool⟩)

/-- RECHECK: the driver leaves FAULTED for CHECKING, and the faulted count falls (R165). -/
theorem recheck (run : s.mdc.mode = .run) {c : Corner} (faulted : (s.vd.get c).state = .faulted) :
    (s.recheck c).Runs := by
  refine h.of_groups rfl (fun d => ?_) ?_ (Nat.le_trans (Nat.sub_le _ 1) h.few) h.configured
  · by_cases same : d = c
    · subst same
      simpa [State.recheck] using
        Vd.fits_checking (v := s.vd.get d) (m := s.map d) (mode := s.mdc.mode) (by rw [run]; rfl) h.cap_low
    · simpa [State.recheck, same] using h.fits d
  · have one : (s.recheck c).faultedDrivers = s.faultedDrivers - 1 :=
      State.faultedDrivers_unset (v := (s.vd.get c).checking) rfl faulted (by simp [Vd.checking])
    rw [one, ← h.counted]
    rfl

/-! ## The changes of the configuration (R177, R181, R186) -/

/-- In CONFIG and STANDBY every driver is in OFF, no setpoint depends on the configuration, and nothing needs to be SET. -/
theorem of_still (still : s.mdc.mode = .config ∨ s.mdc.mode = .standby) {f : Cfs}
    (contents : (s.setCfs f).contentsPass) : (s.setCfs f).Runs := by
  refine ⟨fun c => ?_, h.counted, h.few, fun counts => ?_, contents⟩
  · obtain ⟨admitted, agrees, _⟩ := h.fits c
    have off := h.off still c
    have setpoint : (s.vd.get c).setpoint = 0 := by
      unfold Vd.setpointAgrees at agrees
      rwa [off] at agrees
    refine ⟨admitted, ?_, ?_⟩
    · unfold Vd.setpointAgrees
      rwa [setCfs_vd, off]
    · rw [setCfs_vd, setpoint]
      exact Nat.zero_le _
  · rw [setCfs_mdc] at counts
    rcases still with mode | mode <;> rw [mode] at counts <;> cases counts

/-- A change that leaves the maps and the record, and every SET group SET. -/
theorem of_maps {f : Cfs} (maps : f.valveMaps = s.cfs.valveMaps) (variant : f.variant = s.cfs.variant)
    (set : ∀ i, s.cfs.contents i ≠ none → f.contents i ≠ none) (contents : (s.setCfs f).contentsPass) :
    (s.setCfs f).Runs := by
  have map (c : Corner) : (s.setCfs f).map c = s.map c := by simp only [State.map, setCfs_cfs, maps]
  have cap : (s.setCfs f).mapCap = s.mapCap := by simp only [State.mapCap, setCfs_cfs, variant]
  refine ⟨fun c => ?_, h.counted, h.few, fun counts => ?_, contents⟩
  · rw [map, cap]
    exact h.fits c
  · obtain ⟨allSet, written⟩ := h.configured counts
    refine ⟨State.allGroupsSet_iff.2 fun i => set i (State.allGroupsSet_iff.1 allSet i), ?_⟩
    rwa [setCfs_cfs, variant]

/-- What SET_GROUP stores passes its checks; group 3 makes group 0 UNSET, so that the number of its maps is again that of
the flags (R178, R182). -/
theorem store_contentsPass {g : GroupId} {b : List Byte} {x : GroupContents} (read : s.readContents g b = some x) :
    (s.setCfs (s.cfs.store g x)).contentsPass := by
  obtain ⟨maps, profileA, profileB, geometry, limits, classed⟩ := h.contents
  have admits := (State.readContents_some read).2
  have kind := State.readContents_kind read
  cases g with
  | valveMaps =>
    obtain ⟨v, rfl, _⟩ := kind
    obtain ⟨q, set, ⟨front, rear⟩, passes⟩ := admits
    refine ⟨fun w stored => ?_, profileA, profileB, geometry, limits, classed⟩
    cases stored
    exact ⟨q, set, front, rear, passes⟩
  | profileA =>
    obtain ⟨p, rfl, _⟩ := kind
    exact ⟨maps, fun w stored => by cases stored; exact admits, profileB, geometry, limits, classed⟩
  | profileB =>
    obtain ⟨p, rfl, _⟩ := kind
    exact ⟨maps, profileA, fun w stored => by cases stored; exact admits, geometry, limits, classed⟩
  | geometry =>
    obtain ⟨q, rfl, _⟩ := kind
    exact ⟨fun w unset => (by cases unset), profileA, profileB, fun w stored => by cases stored; exact admits.1, limits,
      classed⟩
  | limits =>
    obtain ⟨l, rfl, _⟩ := kind
    exact ⟨maps, profileA, profileB, geometry, fun w stored => by cases stored; exact admits, classed⟩

/-- SET_GROUP sets a hardware group in CONFIG and STANDBY alone, and a profile in RUN too (R181). -/
theorem setGroup {g : GroupId} {b : List Byte} {x : GroupContents} (finding : s.setGroupFinding g = .ok)
    (read : s.readContents g b = some x) : (s.setCfs (s.cfs.store g x)).Runs := by
  have contents := h.store_contentsPass read
  obtain ⟨notSafe, notRunning, _⟩ := State.setGroupFinding_ok finding
  by_cases hardware : g.hardware = true
  · refine h.of_still ?_ contents
    cases mode : s.mdc.mode with
    | config | standby => simp
    | starting | run => exact absurd ⟨hardware, by simp [mode]⟩ notRunning
    | safe => exact absurd mode notSafe
  · obtain ⟨_, variant, _⟩ := s.cfs.store_frame g x
    have keeps (i : GroupId) (other : i ≠ g) : (s.cfs.store g x).contents i = s.cfs.contents i := by
      rw [Cfs.store_other read other, if_neg]
      rintro ⟨rfl, _⟩
      exact hardware rfl
    refine h.of_maps ?_ variant (fun i set => ?_) contents
    · have maps := keeps .valveMaps fun same => hardware (by rw [← same]; rfl)
      exact Option.map_injective (fun _ _ same => GroupContents.valveMaps.inj same) maps
    · by_cases same : i = g
      · rw [same, Cfs.store_same read]
        exact Option.some_ne_none x
      · rwa [keeps i same]

/-- WRITE_VARIANT keeps the groups that the new cap allows, and makes the others UNSET (R186). -/
theorem writeVariant {cap : Nat} (finding : s.variantFinding cap = .ok) (code : BitVec 64) :
    (s.setCfs (s.cfs.writeVariant code cap)).Runs := by
  obtain ⟨unwritten, config, classed, _⟩ := State.variantFinding_ok finding
  obtain ⟨maps, profileA, profileB, geometry, limits, _⟩ := h.contents
  refine h.of_still (.inl config) ⟨fun v kept => ?_, profileA, profileB, geometry, fun l kept => ?_, fun w written => ?_⟩
  · obtain ⟨within, set⟩ := Option.ite_none_left_eq_some.1 kept
    obtain ⟨q, flags, front, rear, passes⟩ := maps v set
    refine ⟨q, flags, front, rear, fun m among => ?_⟩
    obtain ⟨first, last, ordered, _, checks⟩ := ValveMap.passes_iff.1 (passes m among)
    refine ValveMap.passes_iff.2 ⟨first, last, ordered, ?_, checks⟩
    refine Decidable.byContradiction fun exceeds => ?_
    exact within (Cfs.mapsExceed_iff.2 ⟨v, set, m, among, exceeds⟩)
  · obtain ⟨above, set⟩ := Option.ite_none_left_eq_some.1 kept
    obtain ⟨warm, warmHigh, hot, hotHigh, apart, low, high, _, checks⟩ := Limits.passes_iff.1 (limits l set)
    refine Limits.passes_iff.2 ⟨warm, warmHigh, hot, hotHigh, apart, low, high, fun w written => ?_, checks⟩
    cases written
    refine Decidable.byContradiction fun under => ?_
    exact above (Cfs.thresholdBelow_iff.2 ⟨l, set, Nat.lt_of_not_le under⟩)
  · cases written
    exact classed

end State.Runs

/-! ## Every change that a command makes -/

namespace State.Settled

variable {s : State} (h : s.Settled)

include h

theorem setVd {c : Corner} {v : Vd} (fits : v.Fits s.mdc.mode (s.map c) s.mapCap)
    (faulted : v.state = .faulted ↔ (s.vd.get c).state = .faulted) : (s.setVd c v).Settled :=
  h.of_runs (h.toRuns.setVd fits faulted) rfl rfl

theorem sample (c : Corner) (current : Nat) : (s.sample c current).Settled := by
  have kept : (s.setVd c { s.vd.get c with measured := currentReading current }).Settled :=
    h.setVd ((h.fits c).congr rfl rfl rfl) Iff.rfl
  simp only [State.sample]
  split
  · rename_i exceeds
    exact kept.enterFaulted (by simpa using DriverState.carriesCurrent_of_watched exceeds.1) _ _
  split
  · exact kept.setVd ((kept.fits c).congr rfl rfl rfl) Iff.rfl
  · exact kept

theorem trackingExpires (c : Corner) : (s.trackingExpires c).Settled := by
  simp only [State.trackingExpires]
  split
  · rename_i runs
    exact h.enterFaulted (DriverState.carriesCurrent_of_tracked runs.2) _ _
  · exact h

theorem checkPassed {c : Corner} (checking : (s.vd.get c).state = .checking) (resistance : Nat) :
    (s.checkPassed c resistance).Settled := by
  have carries : (s.vd.get c).state.carriesCurrent = true := by rw [checking]; rfl
  rcases h.started_of_carriesCurrent carries with starting | run
  · exact h.of_count (h.checkPassed_starting starting checking resistance) (by simp [starting]) (by simp)
  · exact h.of_count (h.checkPassed_run run checking resistance) (by simp [run]) (by simp)

theorem checkCompletes {c : Corner} (checking : (s.vd.get c).state = .checking) (resistance : Nat) :
    (s.checkCompletes c resistance).Settled := by
  have carries : (s.vd.get c).state.carriesCurrent = true := by rw [checking]; rfl
  unfold State.checkCompletes
  split
  · exact h.enterFaulted carries _ _
  · exact h.enterFaulted carries _ _
  · exact h.checkPassed checking resistance

theorem trimCompletes {c : Corner} (trims : (s.vd.get c).state = .trim) (trim : Trim) (resistance : Nat) :
    (s.trimCompletes c trim resistance).Settled := by
  have carries : (s.vd.get c).state.carriesCurrent = true := by rw [trims]; rfl
  unfold State.trimCompletes
  split
  · exact h.enterFaulted carries _ _
  · exact h.enterFaulted carries _ _
  · exact h.of_runs (h.trimPassed trims trim resistance) (by simp) (by simp)

theorem recheck (run : s.mdc.mode = .run) {c : Corner} (faulted : (s.vd.get c).state = .faulted) :
    (s.recheck c).Settled :=
  ⟨h.toRuns.recheck run faulted, fun _ => Nat.le_trans (Nat.sub_le _ 1) (h.escalated (by simp [run]))⟩

theorem emptyMarker (m : Marker) : (s.emptyMarker m).Settled := by
  refine h.of_runs ?_ (by simp) (by simp)
  cases m with
  | fault c => exact h.toRuns.setVd ((h.fits c).congr rfl rfl rfl) Iff.rfl
  | mode | lock _ | profile | condition _ _ => exact h.toRuns.of_same rfl rfl rfl rfl
  | passage =>
    simp only [State.emptyMarker]
    split
    · exact h.toRuns
    · exact h.toRuns.of_same rfl rfl rfl rfl

end State.Settled

theorem State.acceptSwitch_mdc (s : State) (p : ProfileName) : (s.acceptSwitch p).mdc = s.mdc := by
  unfold State.acceptSwitch
  split <;> simp

/-- RECHECK is accepted of a driver in FAULTED (R164). -/
theorem State.faulted_of_recheckFinding {s : State} {c : Corner} (h : s.recheckFinding c = .ok) :
    (s.vd.get c).state = .faulted := by
  unfold State.recheckFinding at h
  split at h
  · cases h
  · rename_i faulted
    exact Decidable.not_not.1 faulted

theorem State.settled_reset (p : List Instr) (held : Bool) :
    { State.reset with pending := p, resetHeld := held : State }.Settled :=
  State.settled_iff.2
    ⟨State.reset_modesAgree, State.reset_configured, State.reset_contentsPass, State.reset_setpointsAgree⟩

/-- Between commands no second fault is left unanswered, so each change that a command makes settles too. -/
theorem State.settled_keeps : Keeps State.Settled where
  outer _ _ _ _ h := h.of_same rfl rfl rfl rfl
  resumes _ h _ _ := h.of_same (by simp) (by simp) (by simp) (by simp)
  setGroup _ _ _ _ _ _ h _ finding read := h.of_runs (h.toRuns.setGroup finding read) rfl rfl
  setLocks _ _ _ _ h := h.of_runs (h.of_maps rfl rfl (fun _ set => set) h.contents) rfl rfl
  writeVariant code _ _ _ h finding := h.of_runs (h.toRuns.writeVariant finding code) rfl rfl
  start _ _ h ok :=
    h.of_count (h.enterStarting ok) (by rcases State.startFinding_ok_mode ok with mode | mode <;> simp [mode]) (by simp)
  standby _ s h _ := ⟨h.enterStandby, fun _ => by simp⟩
  restart _ _ h := ⟨h.applyRestart, fun _ => Nat.zero_le 1⟩
  motion _ _ _ _ _ h := h.of_same (by simp) (by simp) (by simp) (by simp)
  preview _ _ _ _ _ h _ := h.of_same rfl rfl rfl rfl
  withdraw _ _ _ _ h _ _ := h.of_same rfl rfl rfl rfl
  select _ _ s p h _ _ _ :=
    h.of_same (by simp) (by rw [s.acceptSwitch_mdc p]) (by rw [s.acceptSwitch_mdc p]) (s.acceptSwitch_drivers p).2
  trimAhead _ _ _ _ c h _ _ := h.of_runs (h.pullAhead c _) (by simp) (by simp)
  recheck _ _ _ _ h run finding := h.recheck run (State.faulted_of_recheckFinding finding)
  setReporting _ _ _ _ _ _ h := h.of_same rfl rfl rfl rfl
  clear _ _ _ _ _ _ h := h.of_same rfl rfl rfl rfl
  fullReset _ _ s held := State.settled_reset s.pending held
  frontPulse _ _ _ _ h _ := h.of_same (by simp) (by simp) (by simp) (by simp)
  rearPulse _ _ _ h _ := h.of_same (by simp) (by simp) (by simp) (by simp)
  standstill _ _ _ h _ := h.of_same rfl rfl rfl rfl
  updateInRun c raw _ _ h run := h.of_runs (h.toRuns.updateInRun run c raw) (by simp) (by simp)
  updateOutsideRun c _ _ _ h _ := h.of_runs (h.toRuns.updateOutsideRun c) (by simp) (by simp)
  sample c n _ _ h := h.sample c n
  trackingExpires c _ _ h := h.trackingExpires c
  checkCompletes _ r _ _ h checking := h.checkCompletes checking r
  trimCompletes _ r _ _ trim h trims _ := h.trimCompletes trims trim r
  trimTimerExpires c _ _ h _ := h.of_runs (h.toRuns.trimTimerExpires c) (by simp) (by simp)
  silence _ _ h _ _ := h.of_same (by simp) (by simp) (by simp) (by simp)
  emptyMarker _ _ m h := h.emptyMarker m

/-- Settles O20: the four parts together say that the part is settled, which every change that a command makes keeps. -/
theorem runningPartStaysConfiguredAndWithinTheCap : Obligations.RunningPartStaysConfiguredAndWithinTheCap :=
  fun _ _ stepped h => State.settled_iff.1 (Keeps.step State.settled_keeps (State.settled_iff.2 h) stepped)

end Sys2Proof.Machine
end

section
/-! Frames of the host (R190, R198, R199): what the collected bits of a frame hold, the finding of each frame, and that the
frame of a request is read back as that request. -/

namespace Sys2Proof.Machine

/-! ## Fields of four and of eight bytes read and written back (R199) -/

theorem bytesOfWord_wordAt (b : List Byte) (o : Nat) : bytesOfWord (wordAt b o) = bytesAt b o 4 := by
  rw [bytesOfWord, wordAt, BitVec.extractLsb'_append_eq_left, BitVec.extractLsb'_append_eq_right, bytesOfHalf_halfAt,
    bytesOfHalf_halfAt, bytesAt_append]

theorem bytesOfCode_codeAt (b : List Byte) (o : Nat) : bytesOfCode (codeAt b o) = bytesAt b o 8 := by
  rw [bytesOfCode, codeAt, BitVec.extractLsb'_append_eq_left, BitVec.extractLsb'_append_eq_right, bytesOfWord_wordAt,
    bytesOfWord_wordAt, bytesAt_append]

/-- An eight-byte field is its two halves, each a four-byte number (R199). -/
theorem bytesOfCode_eq (d : BitVec 64) :
    bytesOfCode d = bytesOfNat4 (d.toNat / 4294967296) ++ bytesOfNat4 d.toNat := by
  have high : d.extractLsb' 32 32 = BitVec.ofNat 32 (d.toNat / 4294967296) := by
    simp [← BitVec.toNat_inj, BitVec.extractLsb'_toNat, Nat.shiftRight_eq_div_pow]
  have low : d.extractLsb' 0 32 = BitVec.ofNat 32 d.toNat := by
    simp [← BitVec.toNat_inj, BitVec.extractLsb'_toNat]
  rw [bytesOfCode, high, low, bytesOfNat4, bytesOfNat4]

theorem wordAt_of_bytes {b : List Byte} {o : Nat} {w : Position} (carried : bytesAt b o 4 = bytesOfWord w) :
    wordAt b o = w := by
  have high : halfAt b o = w.extractLsb' 16 16 := halfAt_of_bytes (bytesAt_within carried (i := 0) (n := 2) (by omega))
  have low : halfAt b (o + 2) = w.extractLsb' 0 16 := halfAt_of_bytes (bytesAt_within carried (i := 2) (n := 2) (by omega))
  rw [wordAt, high, low]
  exact (BitVec.extractLsb'_append_extractLsb'_eq_extractLsb' rfl).trans BitVec.extractLsb'_eq_self

theorem codeAt_of_bytes {b : List Byte} {o : Nat} {d : BitVec 64} (carried : bytesAt b o 8 = bytesOfCode d) :
    codeAt b o = d := by
  have high : wordAt b o = d.extractLsb' 32 32 := wordAt_of_bytes (bytesAt_within carried (i := 0) (n := 4) (by omega))
  have low : wordAt b (o + 4) = d.extractLsb' 0 32 := wordAt_of_bytes (bytesAt_within carried (i := 4) (n := 4) (by omega))
  rw [codeAt, high, low]
  exact (BitVec.extractLsb'_append_extractLsb'_eq_extractLsb' rfl).trans BitVec.extractLsb'_eq_self

/-- A field past the front of a body is the field of the rest. -/
theorem halfAt_append (front rest : List Byte) : halfAt (front ++ rest) front.length = halfAt rest 0 := by
  have high : byteAt (front ++ rest) front.length = byteAt rest 0 := byteAt_append front rest 0
  have low : byteAt (front ++ rest) (front.length + 1) = byteAt rest (0 + 1) := byteAt_append front rest 1
  rw [halfAt, halfAt, high, low]

theorem bytesAt_append_drop {b : List Byte} {n : Nat} (inside : n ≤ b.length) : bytesAt b 0 n ++ b.drop n = b := by
  have front : bytesAt b (0 + 0) n = (b.drop 0).take n := bytesAt_within (bytesAt_all b) (by omega)
  rw [front, List.drop_zero, List.take_append_drop]

/-! ## Kinds and lengths (R198) -/

theorem requestKindOf_iff {b : Byte} {k : RequestKind} : requestKindOf b = some k ↔ b = k.code := by
  constructor
  · intro found
    exact (beq_iff_eq.1 (List.find?_some (p := fun k : RequestKind => k.code == b) found)).symm
  · rintro rfl
    cases k <;> rfl

theorem RequestKind.permits_iff (k : RequestKind) (n : Nat) : k.permits n = true ↔
    match k with
    | .identify | .start | .standby | .restart | .status => n = 0
    | .readGroup | .setLocks | .motion | .selectProfile | .recheck | .readOrigin => n = 1
    | .withdraw | .trimAhead | .setReporting | .clearConditions => n = 2
    | .writeVariant => n = 10
    | .setGroup => n = 12 ∨ n = 40 ∨ n = 88 ∨ n = 89 ∨ n = 133 ∨ n = 177
    | .preview => 19 ≤ n ∧ n ≤ 27
    | .fetch => n ≤ 248 := by
  cases k <;> simp [RequestKind.permits]

/-- No permitted body is longer than 248 bytes. -/
theorem RequestKind.le_of_permits {k : RequestKind} {n : Nat} (h : k.permits n = true) : n ≤ 248 := by
  rw [RequestKind.permits_iff] at h
  cases k <;> simp only at h <;> omega

/-! ## What the collected bits hold (R190, findings 1 to 4) -/

/-- The body of a frame, by its length byte (R199). -/
def frameBody (f : RawFrame) : List Byte := (f.bytes.drop 3).take (natAt f.bytes 2)

theorem length_frameBody {f : RawFrame} (total : f.bytes.length = natAt f.bytes 2 + 5) :
    (frameBody f).length = natAt f.bytes 2 := by
  rw [frameBody, List.length_take, List.length_drop]
  omega

theorem byteAt_frameBody {f : RawFrame} {i : Nat} (inside : i < natAt f.bytes 2) :
    byteAt (frameBody f) i = byteAt f.bytes (3 + i) := by
  rw [byteAt, byteAt, frameBody, List.getD_eq_getElem?_getD, List.getD_eq_getElem?_getD, List.getElem?_take, if_pos inside,
    List.getElem?_drop]

/-- None of findings 1 to 4 of R190: the bits are those of a frame of the kind, whatever its CRC. -/
structure FrameHolds (f : RawFrame) (k : RequestKind) : Prop where
  noStrays : f.strayBits = 0
  sync : byteAt f.bytes 0 = syncByte
  kind : byteAt f.bytes 1 = k.code
  permitted : k.permits (natAt f.bytes 2) = true
  total : f.bytes.length = natAt f.bytes 2 + 5
  counted : sampleCountAgrees k (frameBody f) = true


theorem judgeFrame_of_holds {f : RawFrame} {k : RequestKind} (h : FrameHolds f k) :
    judgeFrame f =
      if halfAt f.bytes (natAt f.bytes 2 + 3) ≠ frameCrc k.code (frameBody f) then .crcError
      else .wellFormed (requestOf k (frameBody f)) := by
  have whole : ¬(f.strayBits ≠ 0 ∨ f.bytes.length < 5) := by simp [h.noStrays, h.total]
  have sound : ¬(248 < natAt f.bytes 2 ∨ ¬k.permits (natAt f.bytes 2) ∨ f.bytes.length ≠ natAt f.bytes 2 + 5
      ∨ ¬sampleCountAgrees k (frameBody f)) := by
    simp [h.permitted, h.total, h.counted, RequestKind.le_of_permits h.permitted]
  rw [frameBody] at sound ⊢
  simp only [judgeFrame, if_neg whole, h.sync, h.kind, requestKindOf_iff.2 rfl, if_neg sound, ne_eq, not_true, if_false]

theorem exists_holds_of_judgeFrame {f : RawFrame} (h : judgeFrame f ≠ .malformed) : ∃ k, FrameHolds f k := by
  unfold judgeFrame at h
  dsimp only at h
  split at h
  · exact absurd rfl h
  rename_i whole
  split at h
  · exact absurd rfl h
  rename_i sync
  split at h
  · exact absurd rfl h
  rename_i k kind
  split at h
  · exact absurd rfl h
  rename_i sound
  simp only [not_or, Decidable.not_not] at whole sync sound
  obtain ⟨_, permitted, total, counted⟩ := sound
  exact ⟨k, whole.1, sync, requestKindOf_iff.1 kind, permitted, total, counted⟩

theorem judgeFrame_ne_malformed_iff {f : RawFrame} : judgeFrame f ≠ .malformed ↔ ∃ k, FrameHolds f k := by
  refine ⟨exists_holds_of_judgeFrame, fun ⟨k, h⟩ => ?_⟩
  rw [judgeFrame_of_holds h]
  split <;> simp

/-- The CRC that a frame carries is read over its kind, its length and its body as collected (R199). -/
theorem FrameHolds.frameCrc_eq {f : RawFrame} {k : RequestKind} (h : FrameHolds f k) :
    frameCrc k.code (frameBody f) = crc16 (byteAt f.bytes 1 :: byteAt f.bytes 2 :: (frameBody f)) := by
  rw [frameCrc, length_frameBody h.total, byteOfNat_natAt, h.kind]

/-- A PREVIEW's sample count stands at offset 21 of its frame. -/
theorem sampleCountAgrees_iff_byte {f : RawFrame} {k : RequestKind} (permitted : k.permits (natAt f.bytes 2) = true)
    (total : f.bytes.length = natAt f.bytes 2 + 5) :
    sampleCountAgrees k (frameBody f) = true ↔ (k = .preview → natAt f.bytes 21 = natAt f.bytes 2 - 19) := by
  unfold sampleCountAgrees
  split
  · rename_i preview
    subst preview
    have long := ((RequestKind.permits_iff .preview _).1 permitted).1
    have place : natAt (frameBody f) 18 = natAt f.bytes 21 := congrArg BitVec.toNat (byteAt_frameBody (by omega))
    rw [beq_iff_eq, place, length_frameBody total]
    exact ⟨fun h _ => h, fun h => h rfl⟩
  · rename_i other
    exact ⟨fun _ h => absurd h other, fun _ => rfl⟩

/-! ## The CRC, bit by bit (R199) -/

theorem crc16_eq_foldl (bytes : List Byte) :
    crc16 bytes = (bytes.flatMap fun b => [7, 6, 5, 4, 3, 2, 1, 0].map fun i => b.getLsbD i).foldl
      (fun (crc : Half) (bit : Bool) => if crc.msb != bit then (crc <<< 1) ^^^ 0x1021 else crc <<< 1) 0xFFFF := by
  rw [List.foldl_flatMap, crc16]
  exact congrArg (fun g => bytes.foldl g 0xFFFF) (funext fun crc => funext fun b => crcByte_eq_foldl crc b)

/-- Settles O3: what a frame holds decides findings 1 to 4, its CRC finding 5; and the CRC is the division of its bits. -/
theorem frameFindingsOneToFive : Obligations.FrameFindingsOneToFive := by
  refine ⟨fun f => ?_, RequestKind.permits_iff, fun bytes => crc16_eq_foldl bytes⟩
  intro byte length body
  constructor
  · rw [judgeFrame_ne_malformed_iff]
    constructor
    · rintro ⟨k, h⟩
      exact ⟨h.noStrays, by rw [h.total]; omega, h.sync, k, h.kind, RequestKind.le_of_permits h.permitted, h.permitted,
        h.total, (sampleCountAgrees_iff_byte h.permitted h.total).1 h.counted⟩
    · rintro ⟨noStrays, _, sync, k, kind, _, permitted, total, count⟩
      exact ⟨k, noStrays, sync, kind, permitted, total, (sampleCountAgrees_iff_byte permitted total).2 count⟩
  · intro taken
    obtain ⟨k, h⟩ := judgeFrame_ne_malformed_iff.1 taken
    rw [judgeFrame_of_holds h, h.frameCrc_eq]
    show _ ↔ halfAt f.bytes (natAt f.bytes 2 + 3) ≠ crc16 (byteAt f.bytes 1 :: byteAt f.bytes 2 :: (frameBody f))
    split
    · rename_i wrong
      exact ⟨fun _ => wrong, fun _ => rfl⟩
    · rename_i right
      exact ⟨nofun, fun wrong => absurd wrong right⟩

/-! ## The frame of a request, read back (R199) -/

/-- A request is read back from its body. -/
theorem requestOf_bodyOfRequest {i : Instr} {k : RequestKind} (kind : kindOfRequest i = some k) :
    requestOf k (bodyOfRequest i) = i := by
  cases i <;> cases kind
  case writeVariant code cap =>
    have first : codeAt (bytesOfCode code ++ bytesOfHalf cap) 0 = code := codeAt_of_bytes rfl
    have second : halfAt (bytesOfCode code ++ bytesOfHalf cap) 8 = cap := halfAt_of_bytes rfl
    exact congr (congrArg Instr.writeVariant first) second
  case preview r =>
    have tag : halfAt (bodyOfRecord r) 0 = r.tag := halfAt_of_bytes rfl
    have start : wordAt (bodyOfRecord r) 4 = r.start := wordAt_of_bytes rfl
    have length : halfAt (bodyOfRecord r) 8 = r.length := halfAt_of_bytes rfl
    have front : halfAt (bodyOfRecord r) 13 = r.overrideFront := halfAt_of_bytes rfl
    have rear : halfAt (bodyOfRecord r) 15 = r.overrideRear := halfAt_of_bytes rfl
    simp only [requestOf, bodyOfRequest, recordOf, tag, start, length, front, rear]
    rfl
  case withdraw tag => exact congrArg Instr.withdraw (halfAt_of_bytes (b := bytesOfHalf tag) rfl)
  all_goals rfl

/-- A request of a permitted length carries its own sample count. -/
theorem sampleCountAgrees_bodyOfRequest {i : Instr} {k : RequestKind} (kind : kindOfRequest i = some k)
    (permitted : k.permits (bodyOfRequest i).length = true) : sampleCountAgrees k (bodyOfRequest i) = true := by
  cases i <;> cases kind
  case preview r =>
    have length : (bodyOfRecord r).length = 19 + r.samples.length := by
      simp [bodyOfRecord, bytesOfWord, bytesOfHalf]
      omega
    have short := ((RequestKind.permits_iff .preview _).1 permitted).2
    rw [bodyOfRequest, length] at short
    have count : natAt (bodyOfRecord r) 18 = r.samples.length := natAt_of_byte (by omega) rfl
    simp [sampleCountAgrees, bodyOfRequest, count, length]
  all_goals rfl

/-- A well-formed request has a body of a permitted length. -/
theorem permits_of_wellFormed {i : Instr} {k : RequestKind} (kind : kindOfRequest i = some k)
    (wellFormed : i.wellFormed = true) : k.permits (bodyOfRequest i).length = true := by
  have permitted : lengthPermitted i = true := by
    cases i <;> cases kind <;> exact wellFormed
  rwa [lengthPermitted, kind] at permitted

section Framed

variable {k : RequestKind} {body : List Byte} (permitted : k.permits body.length = true)

include permitted

/-- The length byte of a frame is the length of its body. -/
theorem natAt_frameBytes : natAt (frameBytes k.code body) 2 = body.length :=
  natAt_of_byte (Nat.lt_of_le_of_lt (RequestKind.le_of_permits permitted) (by omega)) rfl

theorem frameBody_frameBytes : frameBody { bytes := frameBytes k.code body } = body := by
  rw [frameBody, natAt_frameBytes permitted]
  exact List.take_left

theorem frameHolds_frameBytes (counted : sampleCountAgrees k body = true) :
    FrameHolds { bytes := frameBytes k.code body } k where
  noStrays := rfl
  sync := rfl
  kind := rfl
  permitted := by rwa [natAt_frameBytes permitted]
  total := by rw [natAt_frameBytes permitted]; simp [frameBytes, bytesOfHalf]
  counted := by rwa [frameBody_frameBytes permitted]

/-- The frame of a kind and a body of a permitted length is judged well-formed, and carries the request of that body. -/
theorem judgeFrame_frameBytes (counted : sampleCountAgrees k body = true) :
    judgeFrame { bytes := frameBytes k.code body } = .wellFormed (requestOf k body) := by
  have crc : halfAt (frameBytes k.code body) (body.length + 3) = frameCrc k.code body :=
    (halfAt_append (syncByte :: k.code :: byteOfNat body.length :: body) _).trans (halfAt_of_bytes rfl)
  rw [judgeFrame_of_holds (frameHolds_frameBytes permitted counted), frameBody_frameBytes permitted,
    natAt_frameBytes permitted, crc, if_neg (not_not_intro rfl)]

end Framed

/-- The segment record in a body is written back as it stood, where the body holds its number of samples. -/
theorem bodyOfRecord_recordOf {body : List Byte} (long : 19 ≤ body.length) (count : natAt body 18 = body.length - 19) :
    bodyOfRecord (recordOf body) = body := by
  have samples : byteOfNat (body.drop 19).length = byteAt body 18 := by
    rw [List.length_drop, ← count, byteOfNat_natAt]
  conv => rhs; rw [← bytesAt_append_drop long]
  simp only [bodyOfRecord, recordOf, bytesOfHalf_halfAt, bytesOfWord_wordAt, samples]
  rfl

/-- A body of a permitted length is that of the request which it carries. -/
theorem bodyOfRequest_requestOf {k : RequestKind} {body : List Byte} (permitted : k.permits body.length = true)
    (counted : sampleCountAgrees k body = true) : bodyOfRequest (requestOf k body) = body := by
  have length := (RequestKind.permits_iff k body.length).1 permitted
  have whole {n : Nat} (h : body.length = n) : bytesAt body 0 n = body := h ▸ bytesAt_all body
  cases k with
  | identify | start | standby | restart | status => exact (whole length :)
  | readGroup | setLocks | motion | selectProfile | recheck | readOrigin => exact (whole length :)
  | trimAhead | setReporting | clearConditions => exact (whole length :)
  | withdraw => exact (bytesOfHalf_halfAt body 0).trans (whole length)
  | writeVariant =>
    rw [requestOf, bodyOfRequest, bytesOfCode_codeAt, bytesOfHalf_halfAt]
    exact whole length
  | setGroup => exact bytesAt_append_drop (n := 1) (by omega)
  | preview => exact bodyOfRecord_recordOf length.1 (by simpa [sampleCountAgrees] using counted)
  | fetch => rfl

theorem kindOfRequest_requestOf (k : RequestKind) (body : List Byte) : kindOfRequest (requestOf k body) = some k := by
  cases k <;> rfl

/-- A frame judged well-formed holds the body of its request, and its CRC. -/
theorem judgeFrame_wellFormed_holds {f : RawFrame} {i : Instr} (j : judgeFrame f = .wellFormed i) :
    ∃ k, FrameHolds f k ∧ i = requestOf k (frameBody f)
      ∧ halfAt f.bytes (natAt f.bytes 2 + 3) = frameCrc k.code (frameBody f) := by
  obtain ⟨k, h⟩ := exists_holds_of_judgeFrame (f := f) (by rw [j]; nofun)
  rw [judgeFrame_of_holds h] at j
  split at j
  · cases j
  · rename_i crc
    injection j with j
    exact ⟨k, h, j.symm, Decidable.not_not.1 crc⟩

/-- The bits of a frame with its CRC are the frame of its kind and its body. -/
theorem FrameHolds.eq_frameBytes {f : RawFrame} {k : RequestKind} (h : FrameHolds f k)
    (crc : halfAt f.bytes (natAt f.bytes 2 + 3) = frameCrc k.code (frameBody f)) :
    f = { bytes := frameBytes k.code (frameBody f) } := by
  have total := h.total
  have body : bytesAt f.bytes (0 + 3) (natAt f.bytes 2) = frameBody f := bytesAt_within (bytesAt_all f.bytes) (by omega)
  have head : bytesAt f.bytes 0 3 = [syncByte, k.code, byteOfNat (frameBody f).length] := by
    rw [← h.sync, ← h.kind, length_frameBody total, byteOfNat_natAt]
    rfl
  have bytes : f.bytes = frameBytes k.code (frameBody f) := by
    conv => lhs; rw [← bytesAt_all f.bytes, total, show natAt f.bytes 2 + 5 = 3 + natAt f.bytes 2 + 2 by omega]
    rw [← bytesAt_append, ← bytesAt_append, body, head, Nat.zero_add, Nat.add_comm 3, ← bytesOfHalf_halfAt, crc, frameBytes]
    rfl
  exact congr (congrArg RawFrame.mk bytes) h.noStrays

theorem frameOf_of_wellFormed {f : RawFrame} {i : Instr} (j : judgeFrame f = .wellFormed i) : frameOf i = some f := by
  obtain ⟨k, h, rfl, crc⟩ := judgeFrame_wellFormed_holds j
  have permitted : k.permits (frameBody f).length = true := by rw [length_frameBody h.total]; exact h.permitted
  rw [frameOf, kindOfRequest_requestOf, bodyOfRequest_requestOf permitted h.counted, Option.map_some, ← h.eq_frameBytes crc]

/-- Settles O5: a frame and the request that it carries are read from one another; the layouts are those of the fields. -/
theorem frameOfARequestIsReadBack : Obligations.FrameOfARequestIsReadBack := by
  refine ⟨fun i k kind wellFormed => ?_, fun f i => frameOf_of_wellFormed, ?_⟩
  · have permitted := permits_of_wellFormed kind wellFormed
    refine ⟨{ bytes := frameBytes k.code (bodyOfRequest i) }, by rw [frameOf, kind, Option.map_some], ?_⟩
    rw [judgeFrame_frameBytes permitted (sampleCountAgrees_bodyOfRequest kind permitted), requestOf_bodyOfRequest kind]
  · intro two four sends
    have halves (h : Half) : bytesOfHalf h = two h.toNat := bytesOfHalf_eq h
    have words (w : Position) : bytesOfWord w = four w.toNat := by
      rw [bytesOfWord_eq, bytesOfNat_eq, bytesOfNat_eq]
    have sent {i : Instr} {b : Byte} {body : List Byte} (k : RequestKind) (kind : kindOfRequest i = some k)
        (code : k.code = b) (layout : bodyOfRequest i = body) : sends i b body := by
      subst code
      show frameOf i = some { bytes := [0xB6] ++ ([k.code, BitVec.ofNat 8 body.length] ++ body) ++ two _ }
      rw [frameOf, kind, layout, Option.map_some, frameBytes, frameCrc, halves]
      rfl
    refine ⟨sent .identify rfl rfl rfl, fun _ _ => sent .setGroup rfl rfl rfl, fun _ => sent .readGroup rfl rfl rfl,
      fun _ => sent .setLocks rfl rfl rfl, fun code cap => sent .writeVariant rfl rfl ?_, sent .start rfl rfl rfl,
      sent .standby rfl rfl rfl, sent .restart rfl rfl rfl, fun _ => sent .motion rfl rfl rfl,
      fun r => sent .preview rfl rfl ?_, fun tag => sent .withdraw rfl rfl (halves tag),
      fun _ => sent .selectProfile rfl rfl rfl, fun _ _ => sent .trimAhead rfl rfl rfl, fun _ => sent .recheck rfl rfl rfl,
      fun _ _ => sent .setReporting rfl rfl rfl, fun _ _ => sent .clearConditions rfl rfl rfl,
      fun _ => sent .readOrigin rfl rfl rfl, sent .status rfl rfl rfl, fun _ => sent .fetch rfl rfl rfl⟩
    · rw [bodyOfRequest, bytesOfCode_eq, bytesOfNat4_eq, bytesOfNat4_eq, halves]
      simp only [bytesOfNat_eq]
      rfl
    · rw [bodyOfRequest, bodyOfRecord, halves, halves, halves, halves, words, byteOfNat]

/-! ## A frame is taken as it is found (R190, R191) -/

/-- The command of a request is the request taken. -/
theorem exec_of_kindOfRequest {i : Instr} {k : RequestKind} (kind : kindOfRequest i = some k) (s : State) :
    exec i s = .next (runRequest i s) := by
  cases i <;> cases kind <;> rfl

theorem takeFrame_malformed {s : State} {f : RawFrame} (free : s.resetHeld = false) (j : judgeFrame f = .malformed) :
    takeFrame f s = s.refuseFrame .malformed := by
  rw [takeFrame, State.unlessHeld_free free, j]

theorem takeFrame_crcError {s : State} {f : RawFrame} (free : s.resetHeld = false) (j : judgeFrame f = .crcError) :
    takeFrame f s = s.refuseFrame .crcError := by
  rw [takeFrame, State.unlessHeld_free free, j]

/-- A frame judged well-formed is taken as the command of its request. -/
theorem takeFrame_wellFormed {s : State} {f : RawFrame} {r : Instr} (free : s.resetHeld = false)
    (j : judgeFrame f = .wellFormed r) : exec r s = .next (takeFrame f s) := by
  obtain ⟨k, _, rfl, _⟩ := judgeFrame_wellFormed_holds j
  rw [takeFrame, State.unlessHeld_free free, j]
  exact exec_of_kindOfRequest (kindOfRequest_requestOf k (frameBody f)) s

/-- Settles O4: the three findings of a frame, each by the equation of what it is taken as. -/
theorem framesAreTakenAsTheyAreFound : Obligations.FramesAreTakenAsTheyAreFound := by
  intro s f free
  refine ⟨fun j => ?_, fun j => ?_, fun r j => ?_⟩
  · exact congrArg Host.Outcome.next (takeFrame_malformed free j)
  · exact congrArg Host.Outcome.next (takeFrame_crcError free j)
  · exact ⟨(takeFrame_wellFormed free j).symm, (takeFrame_wellFormed free j).symm⟩

end Sys2Proof.Machine
end

section
/-! The records of the outbound queue and the bytes of an exchange (R189, R198, R199): the layout of each record, the codes
that go out and come in, and the statements of SELECT_ASSERTION and STATUS. -/

namespace Sys2Proof.Machine

/-! ## Codes that come in (R199) -/

/-- The code of a list: the value `n` names its first entry, each next value the next one, and no other value names one. -/
def namedBy {α : Type} (b : Byte) : Nat → List α → Option α
  | _, [] => none
  | n, x :: xs => if b = BitVec.ofNat 8 n then some x else namedBy b (n + 1) xs

theorem namedBy_eq {α : Type} (b : Byte) (xs : List α) (n : Nat) (few : n + xs.length ≤ 256) (inside : n ≤ b.toNat) :
    namedBy b n xs = xs[b.toNat - n]? := by
  induction xs generalizing n with
  | nil => rfl
  | cons x xs ih =>
    rw [List.length_cons] at few
    have reads : (BitVec.ofNat 8 n).toNat = n := by rw [BitVec.toNat_ofNat]; omega
    unfold namedBy
    split
    · rename_i here
      rw [here, reads, Nat.sub_self]
      rfl
    · rename_i elsewhere
      have past : b.toNat ≠ n := fun e => elsewhere (BitVec.eq_of_toNat_eq (by rw [e, reads]))
      rw [ih (n + 1) (by omega) (by omega), show b.toNat - n = b.toNat - (n + 1) + 1 by omega, List.getElem?_cons_succ]

/-- Codes from 0 on name what stands at their place of the list. -/
theorem eq_getElem?_of_namedBy {α : Type} {b : Byte} {xs : List α} {named : Option α} (few : xs.length ≤ 256)
    (codes : named = namedBy b 0 xs) : named = xs[b.toNat]? :=
  codes.trans (namedBy_eq b xs 0 (by omega) (Nat.zero_le _))

/-! ## Bit sets (R199) -/

theorem bit_succ (b : Bool) (n : Nat) : bit b (n + 1) = 2 * bit b n := by
  cases b
  · rfl
  · simp [bit, Nat.pow_succ, Nat.mul_comm]

/-- A set of flags as a number, from bit 0 on. -/
def flagsValue (bits : List Bool) : Nat := bits.foldr (fun b n => (if b then 1 else 0) + 2 * n) 0

@[simp] theorem flagsValue_nil : flagsValue [] = 0 := rfl

@[simp] theorem flagsValue_cons (b : Bool) (bits : List Bool) : flagsValue (b :: bits) = bit b 0 + 2 * flagsValue bits := rfl

theorem groupSetByte_eq (g : PerGroup Bool) :
    groupSetByte g = byteOfNat (flagsValue [g.valveMaps, g.profileA, g.profileB, g.geometry, g.limits]) := by
  refine congrArg byteOfNat ?_
  simp only [flagsValue_cons, flagsValue_nil, bit_succ]
  omega

theorem bitSetByte_eq (b : PerBit Bool) :
    bitSetByte b = byteOfNat (flagsValue [b.limit, b.gap, b.sense, b.holdup, b.unmet]) := by
  refine congrArg byteOfNat ?_
  simp only [flagsValue_cons, flagsValue_nil, bit_succ]
  omega

theorem presence_eq (b0 b1 b2 b3 b4 b5 b6 b7 : Bool) :
    presence b0 b1 b2 b3 b4 b5 b6 b7 = byteOfNat (flagsValue [b0, b1, b2, b3, b4, b5, b6, b7]) := by
  refine congrArg byteOfNat ?_
  simp only [flagsValue_cons, flagsValue_nil, bit_succ]
  omega

/-- The conditions of an origin record, where absent ones are sent as the empty set. -/
theorem conditionsByte_eq (u : Option UpdateSet) :
    (u.map UpdateSet.byte).getD 0 =
      (let v := u.getD {}
      byteOfNat (flagsValue [v.sat, v.rate, v.nopv, v.miss, v.subst, v.slost, v.held, v.ovrd])) := by
  cases u with
  | none => rfl
  | some v => exact presence_eq v.sat v.rate v.nopv v.miss v.subst v.slost v.held v.ovrd

theorem readGroupFlags_eq (isSet isLocked inUse : Bool) :
    bit isSet 0 + bit isLocked 1 + bit inUse 2 = flagsValue [isSet, isLocked, inUse] := by
  simp only [flagsValue_cons, flagsValue_nil, bit_succ]
  omega

theorem passageFlags_eq (incomplete missedFront missedRear overrideUsed : Bool) :
    bit incomplete 0 + bit missedFront 1 + bit missedRear 2 + bit overrideUsed 3
      = flagsValue [incomplete, missedFront, missedRear, overrideUsed] := by
  simp only [flagsValue_cons, flagsValue_nil, bit_succ]
  omega

/-! ## The exchange (R189) -/

/-- An assertion of select fixes the exchange, and nothing else. -/
theorem exec_selectAssertion {s : State} (free : s.resetHeld = false) :
    exec .selectAssertion s = .next (s.setLif { s.lif with exchange := some s.lif.assertion }) :=
  congrArg Host.Outcome.next (State.unlessHeld_free free _)

/-- An exchange shifts out its status byte, its copy, and bytes of value 0 after them. -/
theorem State.shiftedOut_of_exchange {s : State} {x : Exchange} (free : s.resetHeld = false) (e : s.lif.exchange = some x)
    (n : Nat) : s.shiftedOut n = byteAt x.bytes n := by
  simp [State.shiftedOut, free, e]

theorem Lif.assertion_bytes (l : Lif) :
    l.assertion.bytes = l.statusByte :: (match l.queue with
      | [] => []
      | r :: _ => r.bytes) := by
  cases queue : l.queue <;> simp [Lif.assertion, Exchange.bytes, queue]

/-- Settles O2: the exchange by what it shifts out, the layouts by those of their fields, and the codes each by its list. -/
theorem selectAssertionFixesTheExchange : Obligations.SelectAssertionFixesTheExchange := by
  refine ⟨fun s free => ?_, ?_, rfl, rfl, rfl, rfl, rfl, rfl, rfl, rfl, rfl, rfl, rfl, rfl, rfl, rfl, rfl, rfl, rfl,
    fun b => ?_⟩
  · have shifted (n : Nat) :
        (s.setLif { s.lif with exchange := some s.lif.assertion }).shiftedOut n = byteAt s.lif.assertion.bytes n :=
      State.shiftedOut_of_exchange (s := s.setLif { s.lif with exchange := some s.lif.assertion }) free rfl n
    refine ⟨_, exec_selectAssertion free, rfl, ?_, fun empty n => ?_, fun r rest queue n => ?_⟩
    · rw [shifted, Lif.assertion_bytes]
      rfl
    · rw [shifted, Lif.assertion_bytes, empty]
      rfl
    · rw [shifted, Lif.assertion_bytes, queue]
      rfl
  · intro one two four flags presentTwo groupSet bitSet origin variant replies
    have halves (h : Half) : bytesOfHalf h = two h.toNat := bytesOfHalf_eq h
    have words (w : Position) : bytesOfWord w = four w.toNat := by
      rw [bytesOfWord_eq, bytesOfNat_eq, bytesOfNat_eq]
    have codes (d : BitVec 64) : bytesOfCode d = four (d.toNat / 4294967296) ++ four d.toNat := by
      simp only [bytesOfCode_eq, bytesOfNat4_eq, bytesOfNat_eq]
      rfl
    have numbers (n : Nat) : bytesOfNat n = two n := bytesOfNat_eq n
    have optional (n : Option Nat) : optBytes n = presentTwo n := bytesOfNat_eq _
    have groupSets (g : PerGroup Bool) : [groupSetByte g] = groupSet g := congrArg (fun b => [b]) (groupSetByte_eq g)
    have bitSets (b : PerBit Bool) : [bitSetByte b] = bitSet b := congrArg (fun b => [b]) (bitSetByte_eq b)
    have origins (o : OriginRecord) : o.bytes = origin o := by
      simp only [OriginRecord.bytes, presence_eq, conditionsByte_eq, optPosition, words, halves, optional]
      rfl
    have variants (v : Option Variant) : variantBytes v = variant v := by
      simp only [variantBytes, codes, optional]
      rfl
    refine ⟨fun r => ?_, fun p => ⟨rfl, ?_⟩, fun r => ⟨rfl, ?_⟩, fun f => ⟨rfl, ?_⟩, fun l => ⟨rfl, ?_⟩, fun m => ⟨rfl, rfl⟩,
      fun p => ⟨rfl, ?_⟩, fun r => ⟨rfl, rfl⟩, fun v => ⟨rfl, rfl⟩, fun code group set => ⟨rfl, ?_⟩,
      fun code group isLocked inUse x => ⟨rfl, ?_⟩, fun code group isLocked inUse => ⟨rfl, ?_⟩, fun code locks => ⟨rfl, ?_⟩,
      fun code v set => ⟨rfl, ?_⟩, fun code mode unset => ⟨rfl, ?_⟩, fun code mode => ⟨rfl, rfl⟩, fun mode => ⟨rfl, rfl⟩,
      fun code => ⟨rfl, rfl⟩, fun code tag evicted superseded => ⟨rfl, ?_⟩, fun code tag => ⟨rfl, ?_⟩,
      fun code target active p => ⟨rfl, rfl⟩, fun code target active => ⟨rfl, rfl⟩,
      fun code corner count balance pullIn => ⟨rfl, rfl⟩, fun code corner driver retries => ⟨rfl, rfl⟩,
      fun code corner enabled => ⟨rfl, ?_⟩, fun code corner accrued => ⟨rfl, ?_⟩, fun code corner accrued o => ⟨rfl, ?_⟩,
      fun r => ⟨rfl, rfl⟩⟩
    · show Record.bytes r = _
      rw [Record.bytes, halves]
      rfl
    · show PassageReport.bytes p = _
      simp only [PassageReport.bytes, presence_eq, passageFlags_eq, halves, words, numbers, List.flatMap_cons,
        List.flatMap_nil, optional]
      simp only [List.append_assoc, List.append_nil]
      rfl
    · show ConditionReport.bytes r = _
      rw [ConditionReport.bytes, origins]
      rfl
    · show FaultReport.bytes f = _
      rw [FaultReport.bytes, numbers, numbers, words]
      rfl
    · show LockReport.bytes l = _
      rw [LockReport.bytes, words]
      rfl
    · show ProfileReport.bytes p = _
      simp only [ProfileReport.bytes, corners, List.flatMap_cons, List.flatMap_nil, optPosition, PerCorner.get, words]
      rfl
    · show byteOfNat code.code :: group :: [groupSetByte set] = _
      rw [groupSets]
      rfl
    · show byteOfNat code.code :: group :: byteOfNat (bit true 0 + bit isLocked 1 + bit inUse 2) :: x.bytes = _
      rw [readGroupFlags_eq]
      rfl
    · show byteOfNat code.code :: group :: [byteOfNat (bit false 0 + bit isLocked 1 + bit inUse 2)] = _
      rw [readGroupFlags_eq]
      rfl
    · show byteOfNat code.code :: [groupSetByte locks] = _
      rw [groupSets]
      rfl
    · show byteOfNat code.code :: (variantBytes v ++ [groupSetByte set]) = _
      rw [variants, groupSets]
      rfl
    · show byteOfNat code.code :: byteOfNat mode.code :: [groupSetByte unset] = _
      rw [groupSets]
      rfl
    · show byteOfNat code.code :: (bytesOfHalf tag ++ bytesOfHalf evicted ++ [byteOfNat superseded.length]
        ++ superseded.flatMap bytesOfHalf) = _
      rw [halves, halves, show bytesOfHalf = fun x => two x.toNat from funext halves]
      rfl
    · show byteOfNat code.code :: bytesOfHalf tag = _
      rw [halves]
      rfl
    · show byteOfNat code.code :: corner :: [bitSetByte enabled] = _
      rw [bitSets]
      rfl
    · show byteOfNat code.code :: corner :: [bitSetByte accrued] = _
      rw [bitSets]
      rfl
    · show byteOfNat code.code :: corner :: ([bitSetByte accrued] ++ o.bytes) = _
      rw [bitSets, origins]
      rfl
  · have named {α : Type} {xs : List α} {o : Option α} (few : xs.length ≤ 256) (codes : o = namedBy b 0 xs) :=
      eq_getElem?_of_namedBy few codes
    exact ⟨named (by decide) rfl, named (by decide) rfl, named (by decide) rfl, named (by decide) rfl, named (by decide) rfl,
      named (by decide) rfl, named (by decide) rfl, named (by decide) rfl⟩

end Sys2Proof.Machine
end

section
/-! STATUS, the arrival of a frame, FETCH and SILENCE_EXPIRY (R191, R194, R195, R198): what each leaves of the link and of the
store, and the statements that they settle. -/

namespace Sys2Proof.Machine

/-! ## STATUS (R47, R198) -/

/-- The number of slots of a list in a state. -/
def countIn (xs : List Slot) (st : SlotState) : Nat := (xs.filter fun x => x.state = st).length

/-- Every slot is in one of the seven states that a list holds. -/
theorem countIn_total (xs : List Slot) :
    countIn xs .pending + countIn xs .frontLead + countIn xs .frontOn + countIn xs .between + countIn xs .rearLead
      + countIn xs .rearOn + countIn xs .spent = xs.length := by
  induction xs with
  | nil => rfl
  | cons x xs ih =>
    have next (st : SlotState) : countIn (x :: xs) st = countIn xs st + if x.state = st then 1 else 0 := by
      by_cases here : x.state = st <;> simp [countIn, here]
    simp only [next, List.length_cons]
    cases state : x.state <;> simp <;> omega

theorem Store.count_eq_countIn (p : Store) (st : SlotState) : p.count st = countIn p.held st := rfl

theorem Store.count_total (p : Store) :
    p.count .pending + p.count .frontLead + p.count .frontOn + p.count .between + p.count .rearLead + p.count .rearOn
      + p.count .spent = p.held.length := by
  simp only [Store.count_eq_countIn, countIn_total]

/-- The arrival of a frame changes no slot, and so no count. -/
theorem State.delivered_counts (s : State) : s.delivered.pvs.counts = s.pvs.counts := by
  rw [State.delivered_pvs]
  rfl

@[simp] theorem State.delivered_cornerStatus (s : State) : s.delivered.cornerStatus = s.cornerStatus := by
  funext c
  simp [State.cornerStatus]

theorem exec_status {s : State} (h : s.delivers) :
    exec .status s = .next (s.delivered.place (.reply (.status s.delivered.statusReply))) :=
  congrArg Host.Outcome.next (State.takeRequest_delivers h judgeStatus)

/-- Settles O8: the reply as the delivered state gives it, the counts by `Store.count_total`, the layout by its fields. -/
theorem statusReportsEveryBlock : Obligations.StatusReportsEveryBlock := by
  refine ⟨fun s delivers => ⟨?_, ?_, fun few => ?_, fun st => ?_⟩, fun r => ?_⟩
  · rw [exec_status delivers]
    simp only [State.statusReply, State.delivered_counts, State.delivered_cornerStatus, State.delivered_frame]
    rfl
  · exact s.pvs.count_total
  · have total := s.pvs.count_total
    omega
  · refine congrArg List.length (List.filter_congr fun x _ => ?_)
    rw [Bool.eq_iff_iff, decide_eq_true_iff, beq_iff_eq]
  · intro one two four flags track corner
    have words (w : Position) : bytesOfWord w = four w.toNat := by
      rw [bytesOfWord_eq, bytesOfNat_eq, bytesOfNat_eq]
    have numbers (n : Nat) : bytesOfNat n = two n := bytesOfNat_eq n
    have numbers4 (n : Nat) : bytesOfNat4 n = four n := by
      rw [bytesOfNat4_eq, bytesOfNat_eq, bytesOfNat_eq]
    have tracked (t : TrackStatus) : t.bytes = track t := by
      rw [TrackStatus.bytes, words, numbers4]
      rfl
    have cornered (c : CornerStatus) : c.bytes = corner c := by
      rw [CornerStatus.bytes, numbers, numbers, bitSetByte_eq, bytesOfInt_eq]
      rfl
    show one 0 ++ StatusReply.bytes r = _
    simp only [StatusReply.bytes, Machine.tracks, Machine.corners, List.flatMap_cons, List.flatMap_nil, PerTrack.get,
      PerCorner.get, tracked, cornered]
    simp only [List.append_nil, List.append_assoc]
    rfl

/-! ## The arrival of a frame (R40, R191, R195) -/

section FrameArrives

variable (s : State)

/-- A frame that reaches a suspended preview in RUN resumes it, with a MODE report (R40). -/
theorem State.frameArrives_resumes (run : s.mdc.mode = .run) (suspended : s.pvs.preview = .suspended) :
    s.frameArrives.pvs = { s.pvs with preview := .active }
      ∧ s.frameArrives.mdc = { s.mdc with
          supersededCount := s.mdc.nextSuperseded
          marker := some
            { cause := .previewResumed, mode := .run, previous := .run, preview := .active,
              faultedCount := s.mdc.faultedCount, superseded := s.mdc.nextSuperseded } } := by
  simp [State.frameArrives, State.arriveAtStore, State.makeModeReport, run, suspended]

/-- Any other frame changes neither the store nor the Mode Controller. -/
theorem State.frameArrives_passes (other : ¬(s.mdc.mode = .run ∧ s.pvs.preview = .suspended)) :
    s.frameArrives.pvs = s.pvs ∧ s.frameArrives.mdc = s.mdc := by
  simp [State.frameArrives, State.arriveAtStore, other]

end FrameArrives

/-- A request that finds no place for its reply is a NO_ROOM frame (R190 finding 6). -/
theorem State.takeRequest_full {s : State} (free : s.resetHeld = false) (full : 32 ≤ s.lif.queue.length)
    (judge : State → State × Reply) : s.takeRequest judge = s.noRoomFrame := by
  rw [State.takeRequest, State.unlessHeld_free free]
  exact if_pos full

/-- While the queue is full every request but FETCH and RESTART is a NO_ROOM frame. -/
theorem runRequest_full {s : State} (free : s.resetHeld = false) (full : 32 ≤ s.lif.queue.length) {k : RequestKind}
    {body : List Byte} (permitted : k.permits body.length = true) (notFetch : k ≠ .fetch) (notRestart : k ≠ .restart)
    (counted : sampleCountAgrees k body = true) : runRequest (requestOf k body) s = s.noRoomFrame := by
  have full' := State.takeRequest_full free full
  cases k with
  | fetch => exact absurd rfl notFetch
  | restart => exact absurd rfl notRestart
  | setGroup =>
    have length : (body.drop 1).length + 1 = body.length := by
      have := (RequestKind.permits_iff .setGroup _).1 permitted
      rw [List.length_drop]
      omega
    exact (State.takeRequestOfLength_permitted s (length ▸ permitted) _).trans (full' _)
  | preview =>
    have same : bodyOfRecord (recordOf body) = body := bodyOfRequest_requestOf permitted counted
    exact (State.takeRequestOfLength_permitted s (same.symm ▸ permitted) _).trans (full' _)
  | _ => exact full' _

/-- Settles O6: the arrival by the two cases of the preview state, and a full queue by `runRequest_full`. -/
theorem frameArrival : Obligations.FrameArrival := by
  refine ⟨fun s o _ => ?_, fun s => rfl, fun s r => rfl, fun s => ?_, fun s f r free full j notFetch notRestart => ?_⟩
  · refine ⟨?_, fun run suspended => ?_, fun other => ?_, ?_⟩
    · have arrived : (s.endExchange o).frameArrives.lif
          = { (s.endExchange o).lif with silence := (s.endExchange o).silenceRestarted } := by
        simp only [State.frameArrives_frame]
      exact arrived.trans rfl
    · obtain ⟨pvs, mdc⟩ := (s.endExchange o).frameArrives_resumes (by simpa using run) (by simpa using suspended)
      simp [pvs, mdc]
    · simpa using (s.endExchange o).frameArrives_passes (by simpa using other)
    · simp
  · rw [State.attention, Bool.not_eq_true', List.isEmpty_eq_false_iff]
  · obtain ⟨k, h, rfl, _⟩ := judgeFrame_wellFormed_holds j
    rw [kindOfRequest_requestOf, ne_eq, Option.some_inj] at notFetch notRestart
    have taken : takeFrame f s = runRequest (requestOf k (frameBody f)) s := by
      rw [takeFrame, State.unlessHeld_free free, j]
    have full := runRequest_full free full (length_frameBody h.total ▸ h.permitted) notFetch notRestart h.counted
    exact congrArg Host.Outcome.next (taken.trans full)

/-! ## FETCH (R194) -/

/-- Settles O7: a FETCH of a permitted length is delivered, and then removes what its exchange carried. -/
theorem fetchRemovesTheRecordItCarried : Obligations.FetchRemovesTheRecordItCarried := by
  intro s body x free short exchange
  have fetched : exec (.fetch body) s = .next (s.delivered.removeCarried x body.length) := by
    have permitted : RequestKind.permits .fetch body.length = true := (RequestKind.permits_iff .fetch _).2 short
    have released : s.lif.released = x := by rw [Lif.released, exchange, Option.getD_some]
    refine congrArg Host.Outcome.next ?_
    rw [takeFetch, State.unlessHeld_free free, if_pos permitted, released]
  refine ⟨fun none => ?_, fun r copy => ⟨fun carried => ?_, fun cut => ?_⟩⟩
  · rw [fetched, State.removeCarried, if_neg (by simp [Exchange.carriedBy, none])]
  · rw [fetched, State.removeCarried, if_pos (by simpa [Exchange.carriedBy, copy] using carried), State.delivered_lif]
  · rw [fetched, State.removeCarried, if_neg (by simpa [Exchange.carriedBy, copy] using cut)]

/-! ## SILENCE_EXPIRY (R39, R195) -/

/-- `arrange` puts a list as assumption log 21 has it. -/
theorem arranges_arrange (xs : List Slot) : arranges xs (arrange xs) :=
  ⟨fun _ perm rising => arrange_eq perm rising, fun none => arrange_eq_self none⟩

theorem Mdc.nextSuperseded_first {m : Mdc} (none : m.marker = none) : m.nextSuperseded = m.supersededCount := by
  simp [Mdc.nextSuperseded, none]

theorem Mdc.nextSuperseded_replacing {m : Mdc} (waits : m.marker ≠ none) :
    m.nextSuperseded = min 255 (m.supersededCount + 1) := by
  rw [Mdc.nextSuperseded, if_pos (Option.isSome_iff_ne_none.2 waits)]
  split <;> omega

section Silence

variable {s : State}

theorem exec_silenceExpiry (free : s.resetHeld = false) (runs : s.lif.silence ≠ .stopped) :
    exec .silenceExpiry s = .next (s.setLif { s.lif with silence := .stopped }).silenceAtStore := by
  refine congrArg Host.Outcome.next ?_
  rw [State.unlessHeld_free free, if_neg runs]

theorem State.silenceAtStore_suspends (run : s.mdc.mode = .run) (active : s.pvs.preview = .active) :
    s.silenceAtStore.pvs = { s.pvs.silenceFlush with preview := .suspended }
      ∧ s.silenceAtStore.mdc = { s.mdc with
          supersededCount := s.mdc.nextSuperseded
          marker := some
            { cause := .previewSuspended, mode := .run, previous := .run, preview := .suspended,
              faultedCount := s.mdc.faultedCount, superseded := s.mdc.nextSuperseded } } := by
  simp [State.silenceAtStore, State.makeModeReport, run, active]

theorem State.silenceAtStore_passes (other : ¬(s.mdc.mode = .run ∧ s.pvs.preview = .active)) : s.silenceAtStore = s :=
  if_neg other

end Silence

/-- Settles O10: the expiry by the two cases of the preview state; what the flush leaves stands arranged. -/
theorem silenceExpirySuspendsPreview : Obligations.SilenceExpirySuspendsPreview := by
  refine ⟨fun s free runs => ?_, fun m => ⟨Mdc.nextSuperseded_first, Mdc.nextSuperseded_replacing⟩⟩
  refine ⟨_, exec_silenceExpiry free runs, by simp, fun run active => ?_, fun other => ?_, by simp⟩
  · obtain ⟨pvs, mdc⟩ :=
      State.silenceAtStore_suspends (s := s.setLif { s.lif with silence := .stopped }) run active
    rw [pvs, mdc]
    refine ⟨rfl, fun u => ?_, rfl, rfl, rfl⟩
    simpa [Store.silenceFlush, withoutPending] using arranges_arrange ((s.pvs.lists.get u).filter fun x => x.state != .pending)
  · rw [State.silenceAtStore_passes (s := s.setLif { s.lif with silence := .stopped }) other]
    exact ⟨rfl, rfl⟩

end Sys2Proof.Machine
end

section
/-! ADMISSION (R193): how far it goes, the report that it takes first, what waits in each marker and what its admission does
at the owner (R68 to R70, R120, R175). -/

namespace Sys2Proof.Machine

/-! ## One admission after another (R193) -/

section Admit

variable {s : State}

theorem exec_admission (free : s.resetHeld = false) :
    exec .admission s = .next (s.admitReports Config.reportCapacity) :=
  congrArg Host.Outcome.next (State.unlessHeld_free free _)

/-- Admission has stopped: the queue holds 28 records, or no report waits. -/
def State.admitted (s : State) : Prop := 28 ≤ s.lif.queue.length ∨ ∀ m, s.waiting m = none

theorem mem_markerOrder (m : Marker) : m ∈ markerOrder := by
  cases m with
  | condition c b => cases c <;> cases b <;> decide
  | fault c => cases c <;> decide
  | lock t => cases t <;> decide
  | mode | profile | passage => decide

theorem State.firstWaiting_none_iff : s.firstWaiting = none ↔ ∀ m, s.waiting m = none := by
  simp [State.firstWaiting, List.findSome?_eq_none_iff, mem_markerOrder]

/-- The first report that waits is that of the first marker in which one does. -/
theorem State.firstWaiting_eq {m : Marker} {r : Report} {earlier later : List Marker}
    (order : markerOrder = earlier ++ m :: later) (none : ∀ n ∈ earlier, s.waiting n = none)
    (waits : s.waiting m = some r) : s.firstWaiting = some (m, r) := by
  have skipped : earlier.findSome? (fun n => (s.waiting n).map fun r => (n, r)) = Option.none :=
    List.findSome?_eq_none_iff.2 fun n mem => by rw [none n mem, Option.map_none]
  rw [State.firstWaiting, order, List.findSome?_append, skipped, Option.none_or, List.findSome?_cons, waits]
  rfl

theorem State.admitReports_admitted (h : s.admitted) (n : Nat) : s.admitReports n = s := by
  cases n with
  | zero => rfl
  | succ n =>
    rcases h with full | none
    · exact if_neg (Nat.not_lt.2 full)
    · rw [State.admitReports, State.firstWaiting_none_iff.2 none, ite_self]

theorem State.admitReports_succ {m : Marker} {r : Report} (room : s.lif.queue.length < 28)
    (first : s.firstWaiting = some (m, r)) (n : Nat) :
    s.admitReports (n + 1) = ((s.emptyMarker m).place (.report r)).admitReports n := by
  rw [State.admitReports, first]
  exact if_pos room

theorem State.queue_emptyMarker_place (s : State) (m : Marker) (r : Record) :
    ((s.emptyMarker m).place r).lif = { s.lif with queue := s.lif.queue ++ [r] } := by
  simp [State.place]

/-- What every run of admissions does, by the number of places below 28: it has stopped before its fuel has run out, it adds
reports alone, and it changes the link in nothing else. -/
theorem State.admitReports_spec {n : Nat} (fuel : 28 ≤ s.lif.queue.length + n) :
    (s.admitReports n).admitted ∧ ∃ added, (s.admitReports n).lif = { s.lif with queue := s.lif.queue ++ added }
      ∧ (∀ r ∈ added, r.isReport = true) ∧ (added = [] ∨ s.lif.queue.length + added.length ≤ 28) := by
  induction n generalizing s with
  | zero => exact ⟨.inl fuel, [], by simp [State.admitReports]⟩
  | succ n ih =>
    by_cases full : 28 ≤ s.lif.queue.length
    · rw [State.admitReports_admitted (.inl full)]
      exact ⟨.inl full, [], by simp⟩
    cases first : s.firstWaiting with
    | none =>
      have stopped : s.admitted := .inr (State.firstWaiting_none_iff.1 first)
      rw [State.admitReports_admitted stopped]
      exact ⟨stopped, [], by simp⟩
    | some waits =>
      obtain ⟨m, r⟩ := waits
      rw [State.admitReports_succ (Nat.lt_of_not_le full) first]
      have placed := s.queue_emptyMarker_place m (.report r)
      obtain ⟨stopped, added, lif, reports, few⟩ :=
        ih (s := (s.emptyMarker m).place (.report r)) (by rw [placed, List.length_append, List.length_singleton]; omega)
      refine ⟨stopped, .report r :: added, by rw [lif, placed]; simp, ?_, .inr ?_⟩
      · simpa [Record.isReport] using reports
      · rcases few with rfl | few
        · exact Nat.lt_of_not_le full
        · rw [placed, List.length_append, List.length_singleton] at few
          rw [List.length_cons]
          omega

/-- Past the places below 28 the number of admissions allowed makes no difference. -/
theorem State.admitReports_fuel {n k : Nat} (fuel : 28 ≤ s.lif.queue.length + n) (more : n ≤ k) :
    s.admitReports k = s.admitReports n := by
  induction n generalizing s k with
  | zero => exact State.admitReports_admitted (.inl fuel) k
  | succ n ih =>
    obtain ⟨k, rfl⟩ : ∃ j, k = j + 1 := ⟨k - 1, by omega⟩
    by_cases full : 28 ≤ s.lif.queue.length
    · rw [State.admitReports_admitted (.inl full), State.admitReports_admitted (.inl full)]
    cases first : s.firstWaiting with
    | none =>
      have stopped : s.admitted := .inr (State.firstWaiting_none_iff.1 first)
      rw [State.admitReports_admitted stopped, State.admitReports_admitted stopped]
    | some waits =>
      obtain ⟨m, r⟩ := waits
      rw [State.admitReports_succ (Nat.lt_of_not_le full) first, State.admitReports_succ (Nat.lt_of_not_le full) first]
      exact ih (by rw [State.queue_emptyMarker_place, List.length_append, List.length_singleton]; omega) (by omega)

end Admit

/-! ## The oldest SPENT slot (R43) -/

section Earlier

variable {x : Slot}

theorem earlierSpent_of_none (none : x.spentPlace = none) (best : Option (Nat × Slot)) : earlierSpent best x = best := by
  simp [earlierSpent, none]

theorem earlierSpent_first {n : Nat} (place : x.spentPlace = some n) : earlierSpent none x = some (n, x) := by
  simp [earlierSpent, place]

theorem earlierSpent_next {n : Nat} (place : x.spentPlace = some n) (m : Nat) (b : Slot) :
    earlierSpent (some (m, b)) x = if n < m then some (n, x) else some (m, b) := by
  simp [earlierSpent, place]

theorem foldl_earlierSpent_none {xs : List Slot} (h : ∀ x ∈ xs, x.spentPlace = none) (best : Option (Nat × Slot)) :
    xs.foldl earlierSpent best = best := by
  induction xs with
  | nil => rfl
  | cons x xs ih =>
    rw [List.forall_mem_cons] at h
    rw [List.foldl_cons, earlierSpent_of_none h.1]
    exact ih h.2

/-- A slot whose place comes before that of every other one is the one found, wherever it stands in the list. -/
theorem foldl_earlierSpent_least {n : Nat} (place : x.spentPlace = some n) {xs : List Slot}
    (least : ∀ y ∈ xs, y ≠ x → ∀ m, y.spentPlace = some m → n < m) {best : Option (Nat × Slot)}
    (found : best = some (n, x) ∨ x ∈ xs ∧ ∀ m b, best = some (m, b) → n < m) :
    xs.foldl earlierSpent best = some (n, x) := by
  induction xs generalizing best with
  | nil => exact found.resolve_right fun ⟨mem, _⟩ => nomatch mem
  | cons y ys ih =>
    rw [List.forall_mem_cons] at least
    obtain ⟨later, least⟩ := least
    refine ih least ?_
    by_cases same : y = x
    · subst same
      left
      rcases found with rfl | ⟨_, after⟩
      · rw [earlierSpent_next place, if_neg (Nat.lt_irrefl n)]
      · cases best with
        | none => exact earlierSpent_first place
        | some b => rw [earlierSpent_next place, if_pos (after b.1 b.2 rfl)]
    · have waits : x ∈ y :: ys → x ∈ ys := fun mem => (List.mem_cons.1 mem).resolve_left (Ne.symm same)
      cases other : y.spentPlace with
      | none =>
        rw [earlierSpent_of_none other]
        exact found.imp_right (And.imp_left waits)
      | some m =>
        have behind := later same m other
        rcases found with rfl | ⟨mem, after⟩
        · left
          rw [earlierSpent_next other, if_neg (by omega)]
        · refine .inr ⟨waits mem, fun k b e => ?_⟩
          cases best with
          | none =>
            rw [earlierSpent_first other] at e
            cases e
            exact behind
          | some b =>
            rw [earlierSpent_next other] at e
            split at e <;> cases e
            · exact behind
            · exact after _ _ rfl

end Earlier

theorem Store.oldestSpent_none {p : Store} (h : ∀ x ∈ p.held, x.spentPlace = none) : p.oldestSpent = none := by
  rw [Store.oldestSpent, foldl_earlierSpent_none h]
  rfl

theorem Store.oldestSpent_least {p : Store} {x : Slot} {n : Nat} (mem : x ∈ p.held) (place : x.spentPlace = some n)
    (least : ∀ y ∈ p.held, y ≠ x → ∀ m, y.spentPlace = some m → n < m) : p.oldestSpent = some x := by
  rw [Store.oldestSpent, foldl_earlierSpent_least place least (.inr ⟨mem, fun _ _ e => by cases e⟩)]
  rfl

/-- Slots of a list whose serials are all different are told apart by them. -/
theorem eq_of_serial_eq {xs : List Slot} (distinct : (xs.map Slot.serial).Nodup) {x y : Slot} (hx : x ∈ xs) (hy : y ∈ xs)
    (same : x.serial = y.serial) : x = y := by
  induction xs with
  | nil => cases hx
  | cons z zs ih =>
    rw [List.map_cons, List.nodup_cons] at distinct
    obtain ⟨fresh, distinct⟩ := distinct
    rcases List.mem_cons.1 hx with rfl | inx <;> rcases List.mem_cons.1 hy with rfl | iny
    · rfl
    · exact absurd (List.mem_map.2 ⟨y, iny, same.symm⟩) fresh
    · exact absurd (List.mem_map.2 ⟨x, inx, same⟩) fresh
    · exact ih distinct inx iny

/-- The release of a slot of a named store takes that slot out, and leaves the rest of each list by its starts (R21, R70). -/
theorem Store.release_lists {p : Store} (named : p.named) {x : Slot} (mem : x ∈ p.held) (t : Track) :
    arranges ((p.lists.get t).filter fun y => y != x) ((p.release x.serial).lists.get t) := by
  have one {y : Slot} (held : y ∈ p.held) : y.serial = x.serial ↔ y = x :=
    ⟨fun e => eq_of_serial_eq named.1 held mem e, fun e => congrArg Slot.serial e⟩
  have same : (p.lists.get t).filter (fun y => y.serial != x.serial) = (p.lists.get t).filter fun y => y != x := by
    refine List.filter_congr fun y listed => ?_
    have held : y ∈ p.held := by
      cases t with
      | left => exact List.mem_append_left _ listed
      | right => exact List.mem_append_right _ listed
    rw [Bool.eq_iff_iff, bne_iff_ne, bne_iff_ne, ne_eq, ne_eq, one held]
  rw [Store.release, PerTrack.get_of, same]
  exact arranges_arrange _

/-! ## The contents of a PASSAGE report (R69) -/

theorem capField_eq_min (n : Nat) : capField n = min 65535 n := by
  unfold capField
  split <;> omega

theorem RoleRecord.travel_eq (r : RoleRecord) : r.travel =
    match r.heightMin, r.heightMax with
    | some low, some high => some (min 65535 ((high - low).toNat / 1000))
    | _, _ => none := by
  cases low : r.heightMin <;> cases high : r.heightMax <;> simp [RoleRecord.travel, low, high, capField_eq_min]

/-! ## What waits in the marker of an accrued bit (R114, R120) -/

theorem BitState.marker_of_not_waiting {b : BitState} (h : ∀ origin, b ≠ .waiting origin) : b.marker = none := by
  cases b with
  | waiting origin => exact absurd rfl (h origin)
  | clear | unreported | reported => rfl

theorem State.waiting_condition {s : State} {c : Corner} {b : AccruedBit} {origin : OriginRecord}
    (waits : (s.cc.get c).bits.get b = .waiting origin) :
    s.waiting (.condition c b) = some (.condition { corner := c, bit := b, origin }) := by
  rw [State.waiting, waits]
  rfl

theorem State.waiting_condition_none {s : State} {c : Corner} {b : AccruedBit}
    (none : ∀ origin, (s.cc.get c).bits.get b ≠ .waiting origin) : s.waiting (.condition c b) = Option.none := by
  rw [State.waiting, BitState.marker_of_not_waiting none]
  rfl

/-- Settles O9: the run of admissions by its fuel, each marker by its equation, and the oldest SPENT slot by its place. -/
theorem admissionTakesWaitingReportsInOrder : Obligations.AdmissionTakesWaitingReportsInOrder := by
  have capacity (s : State) : 28 ≤ s.lif.queue.length + Config.reportCapacity := Nat.le_add_left 28 _
  refine ⟨fun s free => ?_, fun s free stopped => ?_, fun s m r earlier later free room order none waits => ?_, rfl,
    fun s c => ⟨rfl, rfl⟩, fun s => ⟨rfl, rfl⟩, fun s t => ⟨rfl, rfl⟩, fun s => ⟨rfl, rfl⟩,
    fun s c b => ⟨fun origin => State.waiting_condition, State.waiting_condition_none, ?_⟩, fun s none => ?_,
    fun s x n named mem place least => ?_⟩
  · obtain ⟨stopped, added, lif, reports, _⟩ := State.admitReports_spec (capacity s)
    exact ⟨_, added, exec_admission free, lif, reports, stopped⟩
  · rw [exec_admission free, State.admitReports_admitted stopped]
  · have placed := s.queue_emptyMarker_place m (.report r)
    have free' : ((s.emptyMarker m).place (.report r)).resetHeld = false := by simpa using free
    rw [exec_admission free, exec_admission free']
    refine congrArg Host.Outcome.next ?_
    calc
      s.admitReports 28 = ((s.emptyMarker m).place (.report r)).admitReports 27 :=
        State.admitReports_succ room (State.firstWaiting_eq order none waits) 27
      _ = ((s.emptyMarker m).place (.report r)).admitReports 28 :=
        (State.admitReports_fuel (by rw [placed, List.length_append, List.length_singleton]; omega) (by omega)).symm
  · refine ⟨_, rfl, ?_, fun d other => ?_⟩
    · rw [PerBit.get_set, if_pos rfl]
    · rw [PerBit.get_set, if_neg other]
  · rw [State.waiting, Store.oldestSpent_none none]
    rfl
  · intro travel
    have oldest := Store.oldestSpent_least mem place least
    constructor
    · have travels (r : RoleRecord) : r.travel = travel r := r.travel_eq
      rw [State.waiting, oldest, Option.map_some, Slot.passageReport, travels, travels,
        show capField = min 65535 from funext capField_eq_min]
    · refine ⟨s.pvs.release x.serial, ?_, rfl, Store.release_lists named mem⟩
      simp only [State.emptyMarker, oldest]

end Sys2Proof.Machine
end

section
/-! What each command can do to the link (R189 to R196), and from it that the bounds of the queue, and a copy being shifted
out, are kept (R192, R194). -/

namespace Sys2Proof.Machine

/-! ## The owners' judgements leave the link to LIF (R191) -/

section Judged

variable (s : State)

theorem judgeSetGroup_lif (group : Byte) (contents : List Byte) : (judgeSetGroup group contents s).1.lif = s.lif := by
  unfold judgeSetGroup
  split
  · rfl
  · unfold State.setGroup
    split <;> rfl

theorem judgeReadGroup_lif (group : Byte) : (judgeReadGroup group s).1.lif = s.lif := by
  unfold judgeReadGroup
  split <;> rfl

theorem judgeSetLocks_lif (locks : Byte) : (judgeSetLocks locks s).1.lif = s.lif := by
  unfold judgeSetLocks
  split
  · rfl
  · split <;> rfl

theorem judgeWriteVariant_lif (code : BitVec 64) (cap : Half) : (judgeWriteVariant code cap s).1.lif = s.lif := by
  unfold judgeWriteVariant
  split <;> rfl

theorem judgeStart_lif : (judgeStart s).1.lif = s.lif := by
  unfold judgeStart
  split <;> simp

theorem judgeStandby_lif : (judgeStandby s).1.lif = s.lif := by
  unfold judgeStandby
  split <;> simp

theorem judgeMotion_lif (direction : Byte) : (judgeMotion direction s).1.lif = s.lif := by
  unfold judgeMotion
  split
  · rfl
  · exact foldl_keeps (g := State.lif) (fun u t => by simp) tracks s

theorem judgePreview_lif (r : SegmentRecord) : (judgePreview r s).1.lif = s.lif := by
  unfold judgePreview
  split <;> rfl

theorem judgeWithdraw_lif (tag : Half) : (judgeWithdraw tag s).1.lif = s.lif := by
  unfold judgeWithdraw
  split
  · rfl
  · split
    · rfl
    · split <;> rfl

theorem State.acceptSwitch_lif (p : ProfileName) : (s.acceptSwitch p).lif = s.lif := by
  unfold State.acceptSwitch
  split <;> simp

theorem judgeSelectProfile_lif (target : Byte) : (judgeSelectProfile target s).1.lif = s.lif := by
  unfold judgeSelectProfile
  split
  · rfl
  split
  · rfl
  split
  · split <;> rfl
  split
  · rfl
  · exact s.acceptSwitch_lif _

theorem judgeTrimAhead_lif (corner count : Byte) : (judgeTrimAhead corner count s).1.lif = s.lif := by
  unfold judgeTrimAhead
  split
  · rfl
  split
  · rfl
  split <;> simp

theorem judgeRecheck_lif (corner : Byte) : (judgeRecheck corner s).1.lif = s.lif := by
  unfold judgeRecheck
  split
  · rfl
  split
  · rfl
  split <;> simp

theorem judgeSetReporting_lif (corner bits : Byte) : (judgeSetReporting corner bits s).1.lif = s.lif := by
  unfold judgeSetReporting
  split
  · rfl
  split <;> rfl

theorem judgeClearConditions_lif (corner bits : Byte) : (judgeClearConditions corner bits s).1.lif = s.lif := by
  unfold judgeClearConditions
  split
  · rfl
  split <;> rfl

theorem judgeReadOrigin_lif (corner : Byte) : (judgeReadOrigin corner s).1.lif = s.lif := by
  unfold judgeReadOrigin
  split <;> rfl

end Judged

/-! ## What a command can do to the link -/

/-- What one command can make of the link: the queue stands and the exchange with it or is over; an exchange begins; a reply is
placed; a record that FETCH carried leaves; reports are admitted; the queue is emptied for the reply to RESTART; or the full
reset. -/
inductive Lif.Changes (l : Lif) : Lif → Prop
  | stands (m : Lif) (queue : m.queue = l.queue) (exchange : m.exchange = l.exchange ∨ m.exchange = none) : Lif.Changes l m
  | begins (m : Lif) (queue : m.queue = l.queue) (exchange : m.exchange = some l.assertion) : Lif.Changes l m
  | replies (m : Lif) (r : Reply) (room : l.queue.length < 32) (queue : m.queue = l.queue ++ [.reply r])
      (exchange : m.exchange = none) : Lif.Changes l m
  | carries (m : Lif) (queue : m.queue = l.queue.tail) (exchange : m.exchange = none) : Lif.Changes l m
  | admits (m : Lif) (added : List Record) (few : l.queue.length + added.length ≤ 28) (queue : m.queue = l.queue ++ added)
      (exchange : m.exchange = l.exchange) : Lif.Changes l m
  | restarts (m : Lif) (r : Reply) (queue : m.queue = [.reply r]) (exchange : m.exchange = none) : Lif.Changes l m
  | resets : Lif.Changes l Lif.reset

namespace Lif.Changes

variable {s : State}

theorem refl (l : Lif) : Lif.Changes l l := .stands l rfl (.inl rfl)

theorem unlessHeld {f : State → State} (free : Lif.Changes s.lif (f s).lif) : Lif.Changes s.lif (s.unlessHeld f).lif :=
  State.unlessHeld_induct (P := fun t => Lif.Changes s.lif t.lif) (.refl s.lif) fun _ => free

/-- An event that leaves the link alone. -/
theorem apart {t : State} (same : t.lif = s.lif) : Lif.Changes s.lif t.lif := same ▸ .refl s.lif

theorem refuseFrame (o : FrameOutcome) : Lif.Changes s.lif (s.refuseFrame o).lif := .stands _ rfl (.inr rfl)

theorem takeRequest {judge : State → State × Reply} (lif : ∀ t, (judge t).1.lif = t.lif) :
    Lif.Changes s.lif (s.takeRequest judge).lif := by
  refine unlessHeld ?_
  split
  · exact .stands _ (by simp [State.noRoomFrame, State.endExchange]) (.inr (by simp [State.noRoomFrame, State.endExchange]))
  · rename_i room
    refine .replies _ (judge s.delivered).2 (Nat.lt_of_not_le room) ?_ ?_
    · simp [State.answer, State.place, lif]
    · simp [State.answer, State.place, lif, State.delivered_lif]

theorem takeRequestOfLength {k : RequestKind} {n : Nat} {judge : State → State × Reply}
    (lif : ∀ t, (judge t).1.lif = t.lif) : Lif.Changes s.lif (s.takeRequestOfLength k n judge).lif := by
  unfold State.takeRequestOfLength
  split
  · exact takeRequest lif
  · exact unlessHeld (refuseFrame .malformed)

theorem takeRestart : Lif.Changes s.lif (takeRestart s).lif :=
  unlessHeld (.restarts _ _ rfl (by simp [State.delivered_lif]))

theorem takeFetch (body : List Byte) : Lif.Changes s.lif (takeFetch body s).lif := by
  refine unlessHeld ?_
  split
  · unfold State.removeCarried
    split
    · exact .carries _ (by simp) (by simp [State.delivered_lif])
    · exact .stands _ (by simp) (.inr (by simp [State.delivered_lif]))
  · exact refuseFrame .malformed

theorem runRequest (i : Instr) : Lif.Changes s.lif (runRequest i s).lif := by
  cases i with
  | identify => exact takeRequest fun _ => rfl
  | setGroup group contents => exact takeRequestOfLength fun t => judgeSetGroup_lif t group contents
  | readGroup group => exact takeRequest fun t => judgeReadGroup_lif t group
  | setLocks locks => exact takeRequest fun t => judgeSetLocks_lif t locks
  | writeVariant code cap => exact takeRequest fun t => judgeWriteVariant_lif t code cap
  | start => exact takeRequest judgeStart_lif
  | standby => exact takeRequest judgeStandby_lif
  | restart => exact takeRestart
  | motion direction => exact takeRequest fun t => judgeMotion_lif t direction
  | preview r => exact takeRequestOfLength fun t => judgePreview_lif t r
  | withdraw tag => exact takeRequest fun t => judgeWithdraw_lif t tag
  | selectProfile target => exact takeRequest fun t => judgeSelectProfile_lif t target
  | trimAhead corner count => exact takeRequest fun t => judgeTrimAhead_lif t corner count
  | recheck corner => exact takeRequest fun t => judgeRecheck_lif t corner
  | setReporting corner bits => exact takeRequest fun t => judgeSetReporting_lif t corner bits
  | clearConditions corner bits => exact takeRequest fun t => judgeClearConditions_lif t corner bits
  | readOrigin corner => exact takeRequest fun t => judgeReadOrigin_lif t corner
  | status => exact takeRequest fun _ => rfl
  | fetch body => exact takeFetch body
  | _ => exact .refl s.lif

theorem takeFrame (f : RawFrame) : Lif.Changes s.lif (takeFrame f s).lif := by
  refine unlessHeld ?_
  split
  · exact refuseFrame .malformed
  · exact refuseFrame .crcError
  · exact runRequest _

theorem admitReports : Lif.Changes s.lif (s.admitReports Config.reportCapacity).lif := by
  obtain ⟨_, added, lif, _, few⟩ := s.admitReports_spec (n := Config.reportCapacity) (Nat.le_add_left 28 _)
  rw [lif]
  rcases few with rfl | few
  · exact .stands _ (List.append_nil _) (.inl rfl)
  · exact .admits _ added few rfl rfl

/-- An event of the wiring changes the link only where it is one of LIF's own. -/
theorem event {i : Instr} {t : State} (kind : kindOfRequest i = none) (e : Machine.exec i s = .next t) :
    Lif.Changes s.lif t.lif := by
  cases i with
  | selectAssertion =>
    obtain rfl : _ = t := Host.Outcome.next.inj e
    exact unlessHeld (.begins _ rfl rfl)
  | malformedFrame f | noRoom f =>
    obtain rfl : _ = t := Host.Outcome.next.inj e
    exact takeFrame f
  | fullReset =>
    obtain rfl : _ = t := Host.Outcome.next.inj e
    exact .resets
  | resetRelease =>
    obtain rfl : _ = t := Host.Outcome.next.inj e
    exact .refl s.lif
  | silenceExpiry =>
    obtain rfl : _ = t := Host.Outcome.next.inj e
    refine unlessHeld ?_
    split
    · exact .refl s.lif
    · exact .stands _ (by simp) (.inl (by simp))
  | admission =>
    obtain rfl : _ = t := Host.Outcome.next.inj e
    exact unlessHeld admitReports
  | frontPulseArrival | rearPulseArrival | standstill | update | checkCompletion | trimCompletion | trimTimerExpiry =>
    obtain rfl : _ = t := Host.Outcome.next.inj e
    exact unlessHeld (apart (by split <;> simp))
  | currentSample | trackingTimerExpiry =>
    obtain rfl : _ = t := Host.Outcome.next.inj e
    exact unlessHeld (apart (by simp))
  | _ => cases kind

theorem exec {i : Instr} {t : State} (e : Machine.exec i s = .next t) : Lif.Changes s.lif t.lif := by
  cases kind : kindOfRequest i with
  | none => exact event kind e
  | some k =>
    rw [exec_of_kindOfRequest kind] at e
    exact Host.Outcome.next.inj e ▸ runRequest i

theorem step {t : State} (e : Machine.step s = .next t) : Lif.Changes s.lif t.lif := by
  unfold Machine.step at e
  split at e
  · exact Host.Outcome.next.inj e ▸ .refl s.lif
  · rename_i rest _
    exact exec (s := { s with pending := rest }) e

/-- Every change keeps the bounds of the queue: a reply finds 31 records or fewer, and reports are admitted up to 28 records
(R192). -/
theorem bounded {l m : Lif} (h : Lif.Changes l m)
    (bounds : l.queue.length ≤ 32 ∧ (l.queue.filter Record.isReport).length ≤ 28) :
    m.queue.length ≤ 32 ∧ (m.queue.filter Record.isReport).length ≤ 28 := by
  obtain ⟨records, reports⟩ := bounds
  cases h with
  | stands _ queue _ | begins _ queue _ => exact queue ▸ ⟨records, reports⟩
  | replies _ r room queue _ =>
    rw [queue, List.filter_append, List.length_append, List.length_append]
    exact ⟨Nat.succ_le_of_lt room, reports⟩
  | carries _ queue _ =>
    rw [queue]
    have fewer := ((List.tail_sublist l.queue).filter Record.isReport).length_le
    exact ⟨by rw [List.length_tail]; omega, by omega⟩
  | admits _ added few queue _ =>
    rw [queue]
    have fewer := List.length_filter_le Record.isReport (l.queue ++ added)
    rw [List.length_append] at fewer ⊢
    exact ⟨by omega, by omega⟩
  | restarts _ r queue _ => exact queue ▸ ⟨by simp, by simp [Record.isReport]⟩
  | resets => exact ⟨Nat.zero_le 32, Nat.zero_le 28⟩

/-- Every change keeps the copy of an exchange the head record: only a change that ends the exchange takes the head away
(R194). -/
theorem keepsCopy {l m : Lif} (h : Lif.Changes l m)
    (head : ∀ x r, l.exchange = some x → x.copy = some r → l.queue.head? = some r) :
    ∀ x r, m.exchange = some x → x.copy = some r → m.queue.head? = some r := by
  intro x r exchange copy
  have ended (none : m.exchange = none) : m.queue.head? = some r := by
    rw [none] at exchange
    cases exchange
  cases h with
  | stands _ queue kept =>
    rcases kept with kept | none
    · exact queue ▸ head x r (kept ▸ exchange) copy
    · exact ended none
  | begins _ queue begun =>
    obtain rfl : l.assertion = x := Option.some.inj (begun.symm.trans exchange)
    exact queue ▸ copy
  | replies _ _ _ _ none | carries _ _ none | restarts _ _ _ none => exact ended none
  | admits _ added _ queue kept =>
    rw [queue, List.head?_append, head x r (kept ▸ exchange) copy, Option.some_or]
  | resets => exact ended rfl

end Lif.Changes

/-- Settles O11: what a step can do to the link, and that each such change keeps both. -/
theorem queueStaysBoundedAndItsCopyTheHead : Obligations.QueueStaysBoundedAndItsCopyTheHead :=
  fun _ _ stepped => ⟨(Lif.Changes.step stepped).bounded, (Lif.Changes.step stepped).keepsCopy⟩

end Sys2Proof.Machine
end

section
/-! What one step does with the queue of commands, one equation per case, and the statement they settle. -/

namespace Sys2Proof.Machine

variable {s : State}

/-- With a command waiting, a step is the meaning of the front one, run with only the others still waiting. -/
theorem step_of_pending_cons {c : Instr} {rest : List Instr} (waiting : s.pending = c :: rest) :
    step s = exec c { s with pending := rest } := by
  rw [step, waiting]

/-- With no command waiting, a step changes nothing (the model's choice, assumption log 1). -/
theorem step_of_pending_nil (empty : s.pending = []) : step s = .next s := by
  rw [step, empty]

/-- Settles O1, case by case of the queue: a command at its front, and an empty queue. -/
theorem stepTakesTheFrontCommand : Obligations.StepTakesTheFrontCommand := by
  refine ⟨fun c rest s => ?front, fun s empty => ?idle⟩
  case front => exact step_of_pending_cons (s := { s with pending := c :: rest }) rfl
  case idle => exact step_of_pending_nil empty

end Sys2Proof.Machine
end

section
/-! What keeps a sound store sound: lists that lose slots, and lists whose slots become SPENT and are released (R21, R22,
R43). -/

namespace Sys2Proof.Machine

/-! ## The slots of both lists -/

theorem Store.mem_held {p : Store} {x : Slot} : x ∈ p.held ↔ ∃ t, x ∈ p.lists.get t := by
  rw [Store.held, List.mem_append]
  constructor
  · rintro (left | right)
    · exact ⟨.left, left⟩
    · exact ⟨.right, right⟩
  · rintro ⟨t, mem⟩
    cases t with
    | left => exact .inl mem
    | right => exact .inr mem

theorem Store.mem_held_of_mem {p : Store} {t : Track} {x : Slot} (mem : x ∈ p.lists.get t) : x ∈ p.held :=
  Store.mem_held.2 ⟨t, mem⟩

/-! ## Lists that hold no slot that they did not hold -/

/-- Each list of `q` holds, in some order, slots that the same list of `p` holds, as `key` sees them. -/
def Store.Thins {α : Type} (key : Slot → α) (p q : Store) : Prop :=
  ∀ t, ∃ kept, kept.Sublist ((p.lists.get t).map key) ∧ ((q.lists.get t).map key).Perm kept

namespace Store.Thins

variable {α : Type} {key : Slot → α} {p q : Store}

/-- What a key holds of the slots is seen of a part of it. -/
theorem part {β : Type} (h : Store.Thins key p q) (f : α → β) : Store.Thins (fun x => f (key x)) p q := by
  intro t
  obtain ⟨kept, sub, perm⟩ := h t
  have split (xs : List Slot) : xs.map (fun x => f (key x)) = (xs.map key).map f := by
    rw [List.map_map]
    rfl
  rw [split, split]
  exact ⟨kept.map f, sub.map f, perm.map f⟩

theorem held (h : Store.Thins key p q) : ∃ kept, kept.Sublist (p.held.map key) ∧ (q.held.map key).Perm kept := by
  obtain ⟨left, subLeft, permLeft⟩ := h .left
  obtain ⟨right, subRight, permRight⟩ := h .right
  rw [Store.held, Store.held, List.map_append, List.map_append]
  exact ⟨left ++ right, subLeft.append subRight, permLeft.append permRight⟩

theorem mem (h : Store.Thins key p q) {t : Track} {x : Slot} (mem : x ∈ q.lists.get t) :
    ∃ y ∈ p.lists.get t, key y = key x := by
  obtain ⟨kept, sub, perm⟩ := h t
  exact List.mem_map.1 (sub.subset (perm.subset (List.mem_map_of_mem mem)))

theorem mem_held (h : Store.Thins key p q) {x : Slot} (mem : x ∈ q.held) : ∃ y ∈ p.held, key y = key x := by
  obtain ⟨t, mem⟩ := Store.mem_held.1 mem
  obtain ⟨y, mem, same⟩ := h.mem mem
  exact ⟨y, Store.mem_held_of_mem mem, same⟩

theorem length (h : Store.Thins key p q) : q.held.length ≤ p.held.length := by
  obtain ⟨kept, sub, perm⟩ := h.held
  have fewer := sub.length_le
  have same := perm.length_eq
  rw [List.length_map] at fewer same
  omega

/-- Values of the slots of which no two are the same. -/
theorem nodup {β : Type} (h : Store.Thins key p q) (value : α → Option β)
    (distinct : (p.held.filterMap fun x => value (key x)).Nodup) : (q.held.filterMap fun x => value (key x)).Nodup := by
  obtain ⟨kept, sub, perm⟩ := h.held
  have through (xs : List Slot) : xs.filterMap (fun x => value (key x)) = (xs.map key).filterMap value := by
    rw [List.filterMap_map]
    rfl
  rw [through] at distinct ⊢
  exact (perm.filterMap value).nodup_iff.2 (distinct.sublist (sub.filterMap value))

/-- The same of a value that every slot has. -/
theorem nodup_map {β : Type} (h : Store.Thins key p q) (value : α → β)
    (distinct : (p.held.map fun x => value (key x)).Nodup) : (q.held.map fun x => value (key x)).Nodup := by
  rw [← List.filterMap_eq_map'] at distinct ⊢
  exact h.nodup (fun a => some (value a)) distinct

/-- A relation between any two slots of a list, whichever of them comes first. -/
theorem pairwise (h : Store.Thins key p q) {R : α → α → Prop} (symmetric : ∀ a b, R a b → R b a) {t : Track}
    (related : (p.lists.get t).Pairwise fun x y => R (key x) (key y)) :
    (q.lists.get t).Pairwise fun x y => R (key x) (key y) := by
  obtain ⟨kept, sub, perm⟩ := h t
  rw [← List.pairwise_map] at related ⊢
  exact (perm.pairwise_iff (fun {a b} => symmetric a b)).2 (related.sublist sub)

end Store.Thins

/-- One list alone is changed. -/
theorem Store.thins_of_set {α : Type} {key : Slot → α} {p q : Store} {t : Track} {ys : List Slot}
    (lists : q.lists = p.lists.set t ys) (h : ∃ kept, kept.Sublist ((p.lists.get t).map key) ∧ (ys.map key).Perm kept) :
    Store.Thins key p q := by
  intro u
  rw [lists, PerTrack.get_set]
  split
  · rename_i same
    exact same ▸ h
  · exact ⟨_, .refl _, .refl _⟩

/-! ## What a slot is known by while it is held -/

/-- The segment of a slot and the name of its occupancy. -/
def Slot.identity (x : Slot) : Segment × Nat := (x.segment, x.serial)

/-- A slot with its place in the spent order. -/
def Slot.entry (x : Slot) : (Segment × Nat) × Option Nat := (x.identity, x.spentPlace)

/-- A slot with its state and its place in the spent order. -/
def Slot.standing (x : Slot) : ((Segment × Nat) × Option Nat) × SlotState := (x.entry, x.state)

theorem Segment.overlaps_comm (g h : Segment) : g.overlaps h = h.overlaps g := by
  rw [Segment.overlaps, Segment.overlaps, Bool.and_comm]

section Thinned

variable {p q : Store}

theorem Store.sound_of_thins (h : Store.Thins Slot.identity p q) (sound : p.sound) : q.sound := by
  obtain ⟨few, distinct, noZero, own, apart, lengths⟩ := sound
  refine ⟨Nat.le_trans h.length few, h.nodup_map (fun k => k.1.tag) distinct, fun zero => ?_, fun t x mem => ?_, fun t => ?_,
    fun x mem => ?_⟩
  · obtain ⟨x, mem, tag⟩ := List.mem_map.1 zero
    obtain ⟨y, mem, same⟩ := h.mem_held mem
    have segment : y.segment = x.segment := congrArg Prod.fst same
    exact noZero (List.mem_map.2 ⟨y, mem, by rw [segment, tag]⟩)
  · obtain ⟨y, mem, same⟩ := h.mem mem
    have segment : y.segment = x.segment := congrArg Prod.fst same
    exact segment ▸ own t y mem
  · exact h.pairwise (R := fun j k => j.1.overlaps k.1 = false) (fun j k apart => by rwa [Segment.overlaps_comm]) (apart t)
  · obtain ⟨y, mem, same⟩ := h.mem_held mem
    have segment : y.segment = x.segment := congrArg Prod.fst same
    exact segment ▸ lengths y mem

theorem Store.named_of_thins (h : Store.Thins Slot.identity p q) (next : q.nextSerial = p.nextSerial) (named : p.named) :
    q.named := by
  obtain ⟨distinct, below⟩ := named
  refine ⟨h.nodup_map (fun k => k.2) distinct, fun x mem => ?_⟩
  obtain ⟨y, mem, same⟩ := h.mem_held mem
  have serial : y.serial = x.serial := congrArg Prod.snd same
  rw [next, ← serial]
  exact below y mem

theorem Store.placed_of_thins (h : Store.Thins Slot.standing p q) (next : q.nextSpent = p.nextSpent) (placed : p.placed) :
    q.placed := by
  obtain ⟨waits, distinct⟩ := placed
  refine ⟨fun x mem => ?_, h.nodup (fun k => k.1.2) distinct⟩
  obtain ⟨y, mem, same⟩ := h.mem_held mem
  obtain ⟨⟨segment, _⟩, place⟩ : (y.segment = x.segment ∧ y.serial = x.serial) ∧ y.spentPlace = x.spentPlace := by
    simpa [Slot.standing, Slot.entry, Slot.identity] using congrArg Prod.fst same
  have state : y.state = x.state := congrArg Prod.snd same
  rw [next, ← segment, ← place, ← state]
  exact waits y mem

end Thinned

/-! ## A store kept sound -/

/-- The store is sound, its spent order as it should be, and its slots named apart. -/
def Store.healthy (p : Store) : Prop := p.sound ∧ p.placed ∧ p.named

theorem Store.healthy_of_thins {p q : Store} (h : Store.Thins Slot.standing p q) (serial : q.nextSerial = p.nextSerial)
    (spent : q.nextSpent = p.nextSpent) (healthy : p.healthy) : q.healthy := by
  obtain ⟨sound, placed, named⟩ := healthy
  have identity : Store.Thins Slot.identity p q := h.part fun k => k.1.1
  exact ⟨Store.sound_of_thins identity sound, Store.placed_of_thins h spent placed,
    Store.named_of_thins identity serial named⟩

theorem Store.list_sublist_held (p : Store) (t : Track) : (p.lists.get t).Sublist p.held := by
  cases t with
  | left => exact List.sublist_append_left _ _
  | right => exact List.sublist_append_right _ _

/-! ## The release of SPENT slots (R43, R67) -/

section TakePlace

variable {x : Slot} {n : Nat} {waiting : List Slot}

theorem Slot.newlySpent_iff : x.newlySpent = true ↔ x.state = .spent ∧ x.spentPlace = none := by
  simp [Slot.newlySpent]

@[simp] theorem Slot.takePlace_identity : (x.takePlace n waiting).identity = x.identity := by
  simp [Slot.identity]

theorem Slot.takePlace_spentPlace (fresh : x.newlySpent = true) :
    (x.takePlace n waiting).spentPlace = some (n + (waiting.map Slot.serial).idxOf x.serial) := by
  rw [Slot.takePlace, if_pos fresh]

theorem Slot.takePlace_of_not_newlySpent (h : x.newlySpent = false) : x.takePlace n waiting = x := by
  rw [Slot.takePlace, h]
  rfl

end TakePlace

/-- What the release of newly SPENT slots leaves is slots of the list. -/
theorem settle_identity (n : Nat) (xs : List Slot) :
    ∃ kept, kept.Sublist (xs.map Slot.identity) ∧ ((settle n xs).1.map Slot.identity).Perm kept := by
  have same : (Slot.identity ∘ fun x => x.takePlace n (newlyWaiting xs)) = Slot.identity :=
    funext fun x => Slot.takePlace_identity
  refine ⟨(xs.filter fun x => !x.newlySpent || x.segment.report).map Slot.identity, List.filter_sublist.map _, ?_⟩
  rw [settle, List.map_map, same]
  exact (arrange_perm _).map _

/-- The slots that have just become SPENT with report yes. -/
theorem mem_newlyWaiting {x : Slot} {xs : List Slot} :
    x ∈ newlyWaiting xs ↔ x ∈ xs ∧ x.newlySpent = true ∧ x.segment.report = true := by
  rw [newlyWaiting, mem_inStartOrder, List.mem_filter, Bool.and_eq_true]

/-- A waiting slot takes a place among as many as wait. -/
theorem idxOf_newlyWaiting_lt {x : Slot} {xs : List Slot} (waits : x ∈ newlyWaiting xs) :
    ((newlyWaiting xs).map Slot.serial).idxOf x.serial < (newlyWaiting xs).length := by
  rw [← List.length_map (f := Slot.serial) (as := newlyWaiting xs)]
  exact List.idxOf_lt_length_of_mem (List.mem_map_of_mem waits)

/-- Each slot that the release leaves is one of the list, unchanged or with its new place in the spent order. -/
theorem mem_settle {n : Nat} {x : Slot} {xs : List Slot} (mem : x ∈ (settle n xs).1) :
    (x ∈ xs ∧ x.newlySpent = false)
      ∨ ∃ y ∈ newlyWaiting xs,
        x = { y with spentPlace := some (n + ((newlyWaiting xs).map Slot.serial).idxOf y.serial) } := by
  obtain ⟨y, listed, rfl⟩ := List.mem_map.1 mem
  obtain ⟨mem, stays⟩ := List.mem_filter.1 (mem_arrange.1 listed)
  cases fresh : y.newlySpent with
  | false =>
    rw [Slot.takePlace_of_not_newlySpent fresh]
    exact .inl ⟨mem, fresh⟩
  | true =>
    refine .inr ⟨y, mem_newlyWaiting.2 ⟨mem, fresh, by simpa [fresh] using stays⟩, ?_⟩
    rw [Slot.takePlace, if_pos fresh]

/-- After a release no two places of the spent order are the same: the old ones come before `n`, the new ones from `n` on. -/
theorem settle_places_nodup {n : Nat} {xs : List Slot} (serials : (xs.map Slot.serial).Nodup)
    (places : (xs.filterMap Slot.spentPlace).Nodup) (below : ∀ x ∈ xs, ∀ k, x.spentPlace = some k → k < n) :
    ((settle n xs).1.filterMap Slot.spentPlace).Nodup := by
  have differ : xs.Pairwise fun x y =>
      x.serial ≠ y.serial ∧ ∀ k, x.spentPlace = some k → ∀ j, y.spentPlace = some j → k ≠ j :=
    (List.pairwise_map.1 serials).and (List.pairwise_filterMap.1 places)
  have kept := differ.sublist (List.filter_sublist (p := fun x => !x.newlySpent || x.segment.report))
  rw [settle, ((((arrange_perm _).map _).filterMap _)).nodup_iff, List.filterMap_map]
  refine List.pairwise_filterMap.2 (kept.imp_of_mem fun {x y} memX memY ⟨serial, place⟩ k atX j atY => ?_)
  rw [List.mem_filter] at memX memY
  have waits {z : Slot} (mem : z ∈ xs) (stays : (!z.newlySpent || z.segment.report) = true) (fresh : z.newlySpent = true) :
      z.serial ∈ (newlyWaiting xs).map Slot.serial :=
    List.mem_map_of_mem (mem_newlyWaiting.2 ⟨mem, fresh, by simpa [fresh] using stays⟩)
  simp only [Function.comp_apply] at atX atY
  cases freshX : x.newlySpent with
  | false =>
    rw [Slot.takePlace_of_not_newlySpent freshX] at atX
    have old := below x memX.1 k atX
    cases freshY : y.newlySpent with
    | false =>
      rw [Slot.takePlace_of_not_newlySpent freshY] at atY
      exact place k atX j atY
    | true =>
      rw [Slot.takePlace_spentPlace freshY, Option.some_inj] at atY
      omega
  | true =>
    rw [Slot.takePlace_spentPlace freshX, Option.some_inj] at atX
    cases freshY : y.newlySpent with
    | false =>
      rw [Slot.takePlace_of_not_newlySpent freshY] at atY
      have old := below y memY.1 j atY
      omega
    | true =>
      rw [Slot.takePlace_spentPlace freshY, Option.some_inj] at atY
      intro same
      have inX := List.idxOf_lt_length_of_mem (waits memX.1 memX.2 freshX)
      have inY := List.idxOf_lt_length_of_mem (waits memY.1 memY.2 freshY)
      have index : ((newlyWaiting xs).map Slot.serial).idxOf x.serial
          = ((newlyWaiting xs).map Slot.serial).idxOf y.serial := by omega
      refine serial ?_
      rw [← List.getElem_idxOf inX, ← List.getElem_idxOf inY]
      simp only [index]

section Settled

variable {p : Store} {t : Track} {xs : List Slot}

/-- A list of which the SPENT slots are released was the track's list, but for slots that have left it and for what their
passage has changed. -/
structure Store.Passes (p : Store) (t : Track) (xs : List Slot) : Prop where
  entries : (xs.map Slot.entry).Sublist ((p.lists.get t).map Slot.entry)
  spent : ∀ x ∈ xs, x.spentPlace ≠ none → x.state = .spent

theorem Store.Passes.origin (h : p.Passes t xs) {x : Slot} (mem : x ∈ xs) : ∃ y ∈ p.lists.get t, y.entry = x.entry :=
  List.mem_map.1 (h.entries.subset (List.mem_map_of_mem mem))

theorem Store.Passes.identities (h : p.Passes t xs) :
    (xs.map Slot.identity).Sublist ((p.lists.get t).map Slot.identity) := by
  have split (ys : List Slot) : ys.map Slot.identity = (ys.map Slot.entry).map Prod.fst := by
    rw [List.map_map]
    rfl
  rw [split, split]
  exact h.entries.map _

theorem Store.thins_settleList (h : p.Passes t xs) : Store.Thins Slot.identity p (p.settleList t xs) := by
  refine Store.thins_of_set (ys := (settle p.nextSpent xs).1) rfl ?_
  obtain ⟨kept, sub, perm⟩ := settle_identity p.nextSpent xs
  exact ⟨kept, sub.trans h.identities, perm⟩

/-- The places of the spent order are told apart list by list, and from one list to the other. -/
theorem Store.places_nodup_iff {p : Store} :
    (p.held.filterMap Slot.spentPlace).Nodup ↔
      (∀ u, ((p.lists.get u).filterMap Slot.spentPlace).Nodup)
        ∧ ∀ u w, u ≠ w → ∀ x ∈ p.lists.get u, ∀ y ∈ p.lists.get w, ∀ k, x.spentPlace = some k → y.spentPlace ≠ some k := by
  rw [Store.held, List.filterMap_append, List.nodup_append]
  constructor
  · rintro ⟨left, right, apart⟩
    have between {x y : Slot} (inLeft : x ∈ p.lists.left) (inRight : y ∈ p.lists.right) (k : Nat)
        (atX : x.spentPlace = some k) (atY : y.spentPlace = some k) : False :=
      apart k (List.mem_filterMap.2 ⟨x, inLeft, atX⟩) k (List.mem_filterMap.2 ⟨y, inRight, atY⟩) rfl
    refine ⟨fun u => ?_, fun u w other x inU y inW k atX atY => ?_⟩
    · cases u with
      | left => exact left
      | right => exact right
    · cases u <;> cases w
      · exact other rfl
      · exact between inU inW k atX atY
      · exact between inW inU k atY atX
      · exact other rfl
  · rintro ⟨each, apart⟩
    refine ⟨each .left, each .right, fun k inLeft j inRight same => ?_⟩
    obtain ⟨x, memX, atX⟩ := List.mem_filterMap.1 inLeft
    obtain ⟨y, memY, atY⟩ := List.mem_filterMap.1 inRight
    exact apart .left .right (by decide) x memX y memY k atX (same ▸ atY)

/-- The names of a passing list's slots are told apart. -/
theorem Store.Passes.serials_nodup (h : p.Passes t xs) (named : p.named) : (xs.map Slot.serial).Nodup := by
  have split (ys : List Slot) : ys.map Slot.serial = (ys.map Slot.identity).map Prod.snd := by
    rw [List.map_map]
    rfl
  have sub := h.identities.map Prod.snd
  rw [← split, ← split] at sub
  exact named.1.sublist (sub.trans ((p.list_sublist_held t).map _))

/-- The places of a passing list's slots are those of the list. -/
theorem Store.Passes.places (h : p.Passes t xs) :
    (xs.filterMap Slot.spentPlace).Sublist ((p.lists.get t).filterMap Slot.spentPlace) := by
  have split (ys : List Slot) : ys.filterMap Slot.spentPlace = (ys.map Slot.entry).filterMap Prod.snd := by
    rw [List.filterMap_map]
    rfl
  rw [split, split]
  exact h.entries.filterMap _

/-- A place that a passing list's slot has was taken before (R43). -/
theorem Store.Passes.place_lt (h : p.Passes t xs) (placed : p.placed) {x : Slot} (mem : x ∈ xs) {k : Nat}
    (place : x.spentPlace = some k) : k < p.nextSpent := by
  obtain ⟨waits, _⟩ := placed
  obtain ⟨y, listed, same⟩ := h.origin mem
  obtain ⟨_, _, few⟩ := waits y (Store.mem_held_of_mem listed)
  exact few k ((congrArg Prod.snd same).trans place)

/-- What the release leaves in the list has a place exactly while it is SPENT, and waits with report yes alone (R43, R67). -/
theorem Store.Passes.settled_waits (h : p.Passes t xs) (placed : p.placed) {x : Slot}
    (mem : x ∈ (settle p.nextSpent xs).1) :
    (x.state = .spent ↔ x.spentPlace.isSome = true) ∧ (x.state = .spent → x.segment.report = true)
      ∧ ∀ k, x.spentPlace = some k → k < (p.settleList t xs).nextSpent := by
  have next : (p.settleList t xs).nextSpent = p.nextSpent + (newlyWaiting xs).length := rfl
  rcases mem_settle mem with ⟨mem, stale⟩ | ⟨y, waiting, rfl⟩
  · obtain ⟨y, listed, same⟩ := h.origin mem
    have segment : y.segment = x.segment := congrArg (fun e => e.1.1) same
    have place : y.spentPlace = x.spentPlace := congrArg Prod.snd same
    have ⟨waits, _⟩ := placed
    obtain ⟨spentIff, reports, _⟩ := waits y (Store.mem_held_of_mem listed)
    have spent : x.state = .spent ↔ x.spentPlace.isSome = true := by
      rw [Option.isSome_iff_ne_none]
      refine ⟨fun spent none => ?_, h.spent x mem⟩
      rw [Slot.newlySpent_iff.2 ⟨spent, none⟩] at stale
      cases stale
    refine ⟨spent, fun isSpent => segment ▸ reports ?_, fun k atK => ?_⟩
    · rw [spentIff, place]
      exact spent.1 isSpent
    · have := h.place_lt placed mem atK
      omega
  · obtain ⟨_, fresh, report⟩ := mem_newlyWaiting.1 waiting
    refine ⟨⟨fun _ => rfl, fun _ => (Slot.newlySpent_iff.1 fresh).1⟩, fun _ => report, fun k atK => ?_⟩
    have few := idxOf_newlyWaiting_lt waiting
    cases atK
    omega

/-- No place that the release leaves in the list is one of the other list. -/
theorem Store.Passes.settled_apart (h : p.Passes t xs) (placed : p.placed) {w : Track} (other : w ≠ t) {x y : Slot}
    (memX : x ∈ (settle p.nextSpent xs).1) (memY : y ∈ p.lists.get w) {k : Nat} (atX : x.spentPlace = some k) :
    y.spentPlace ≠ some k := by
  intro atY
  obtain ⟨waits, distinct⟩ := placed
  obtain ⟨_, apart⟩ := Store.places_nodup_iff.1 distinct
  rcases mem_settle memX with ⟨memX, _⟩ | ⟨z, _, rfl⟩
  · obtain ⟨z, memZ, same⟩ := h.origin memX
    exact apart t w other.symm z memZ y memY k ((congrArg Prod.snd same).trans atX) atY
  · obtain ⟨_, _, few⟩ := waits y (Store.mem_held_of_mem memY)
    have old := few k atY
    cases atX
    omega

theorem Store.placed_settleList (h : p.Passes t xs) (placed : p.placed) (named : p.named) : (p.settleList t xs).placed := by
  have lists (u : Track) : (p.settleList t xs).lists.get u = if u = t then (settle p.nextSpent xs).1 else p.lists.get u :=
    PerTrack.get_set _ _ _ _
  have ⟨waits, distinct⟩ := placed
  obtain ⟨each, apart⟩ := Store.places_nodup_iff.1 distinct
  refine ⟨fun x mem => ?_, Store.places_nodup_iff.2 ⟨fun u => ?_, fun u w other x memX y memY k atX atY => ?_⟩⟩
  · obtain ⟨u, mem⟩ := Store.mem_held.1 mem
    rw [lists] at mem
    split at mem
    · exact h.settled_waits placed mem
    · obtain ⟨spent, report, few⟩ := waits x (Store.mem_held_of_mem mem)
      exact ⟨spent, report, fun k atK => Nat.lt_of_lt_of_le (few k atK) (Nat.le_add_right _ _)⟩
  · rw [lists]
    split
    · exact settle_places_nodup (h.serials_nodup named) ((each t).sublist h.places) fun x mem k => h.place_lt placed mem
    · exact each u
  · rw [lists] at memX memY
    split at memX
    · rename_i here
      have elsewhere : w ≠ t := fun there => other (here.trans there.symm)
      rw [if_neg elsewhere] at memY
      exact h.settled_apart placed elsewhere memX memY atX atY
    · rename_i elsewhere
      split at memY
      · exact h.settled_apart placed elsewhere memY memX atY atX
      · exact apart u w other x memX y memY k atX atY

theorem Store.healthy_settleList (h : p.Passes t xs) (healthy : p.healthy) : (p.settleList t xs).healthy := by
  obtain ⟨sound, placed, named⟩ := healthy
  have thins := Store.thins_settleList h
  exact ⟨Store.sound_of_thins thins sound, Store.placed_settleList h placed named, Store.named_of_thins thins rfl named⟩

end Settled

/-! ## The store's operations -/

section Operations

variable {p : Store}

theorem Slot.advance_keeps (x : Slot) (v : AdvanceView) :
    (x.advance v).segment = x.segment ∧ (x.advance v).serial = x.serial ∧ (x.advance v).spentPlace = x.spentPlace := by
  rw [Slot.advance_eq_movedTo]
  exact ⟨rfl, rfl, rfl⟩

theorem Slot.flushed_keeps (x : Slot) :
    x.flushed.segment = x.segment ∧ x.flushed.serial = x.serial ∧ x.flushed.spentPlace = x.spentPlace := by
  unfold Slot.flushed
  split <;> exact ⟨rfl, rfl, rfl⟩

/-- A waiting slot is SPENT. -/
theorem Store.spent_of_placed (placed : p.placed) {t : Track} {x : Slot} (mem : x ∈ p.lists.get t)
    (place : x.spentPlace ≠ none) : x.state = .spent :=
  have ⟨waits, _⟩ := placed
  have ⟨spent, _, _⟩ := waits x (Store.mem_held_of_mem mem)
  spent.2 (Option.isSome_iff_ne_none.2 place)

theorem Store.healthy_advance (h : p.healthy) (t : Track) (v : AdvanceView) : (p.advance t v).healthy := by
  have ⟨_, placed, _⟩ := h
  refine Store.healthy_settleList ⟨?_, fun x mem place => ?_⟩ h
  · have same : (Slot.entry ∘ fun x => x.advance v) = Slot.entry :=
      funext fun x => by simp [Slot.entry, Slot.identity, x.advance_keeps v]
    have kept : ((p.lists.get t).map fun x => x.advance v).map Slot.entry = (p.lists.get t).map Slot.entry := by
      rw [List.map_map, same]
    exact kept ▸ .refl _
  · obtain ⟨y, listed, rfl⟩ := List.mem_map.1 mem
    obtain ⟨_, _, kept⟩ := y.advance_keeps v
    have spent := Store.spent_of_placed placed listed (kept ▸ place)
    rw [Slot.advance_of_spent spent, spent]

theorem Store.healthy_flush (h : p.healthy) (t : Track) : (p.flush t).healthy := by
  refine Store.healthy_settleList ⟨?_, fun x mem _ => ?_⟩ h
  · have same : (Slot.entry ∘ Slot.flushed) = Slot.entry :=
      funext fun x => by simp [Slot.entry, Slot.identity, x.flushed_keeps]
    rw [List.map_map, same]
    exact List.filter_sublist.map _
  · obtain ⟨y, _, rfl⟩ := List.mem_map.1 mem
    exact y.flushed_state

/-- A change of one list's slots that keeps what they stand for. -/
theorem Store.healthy_map (h : p.healthy) (t : Track) {f : Slot → Slot} (keeps : ∀ x, (f x).standing = x.standing) :
    Store.healthy { p with lists := p.lists.set t ((p.lists.get t).map f) } := by
  have same : Slot.standing ∘ f = Slot.standing := funext keeps
  refine Store.healthy_of_thins (Store.thins_of_set (ys := (p.lists.get t).map f) rfl ⟨_, .refl _, ?_⟩) rfl rfl h
  rw [List.map_map, same]

theorem Store.healthy_present (h : p.healthy) (c : Corner) (supplied : Option (Int × Int)) :
    (p.present c supplied).healthy := by
  refine Store.healthy_map h c.track fun x => ?_
  unfold Slot.present
  split
  · cases c.role <;> rfl
  · rfl

theorem Store.healthy_markOverride (h : p.healthy) (t : Track) (serial : Nat) : (p.markOverride t serial).healthy := by
  refine Store.healthy_map h t fun x => ?_
  split <;> rfl

/-- Slots leave the lists, whatever the order in which the others then stand. -/
theorem Store.thins_of_filter {α : Type} {key : Slot → α} {q : Store} (stays : Slot → Bool)
    (lists : ∀ t, (q.lists.get t).Perm ((p.lists.get t).filter stays)) : Store.Thins key p q :=
  fun t => ⟨_, List.filter_sublist.map _, (lists t).map _⟩

theorem Store.thins_silenceFlush {α : Type} {key : Slot → α} (p : Store) : Store.Thins key p p.silenceFlush :=
  Store.thins_of_filter (fun x => x.state != .pending) fun t => by
    rw [Store.silenceFlush, PerTrack.get_of]
    exact arrange_perm _

theorem Store.thins_release {α : Type} {key : Slot → α} (p : Store) (serial : Nat) : Store.Thins key p (p.release serial) :=
  Store.thins_of_filter (fun x => x.serial != serial) fun t => by
    rw [Store.release, PerTrack.get_of]
    exact arrange_perm _

theorem Store.healthy_silenceFlush (h : p.healthy) : p.silenceFlush.healthy :=
  Store.healthy_of_thins p.thins_silenceFlush rfl rfl h

theorem Store.healthy_release (h : p.healthy) (serial : Nat) : (p.release serial).healthy :=
  Store.healthy_of_thins (p.thins_release serial) rfl rfl h

theorem Store.healthy_reset : Store.reset.healthy := ⟨Store.reset_sound, Store.reset_placed, Store.reset_named⟩

end Operations
end Sys2Proof.Machine
end

section
/-! PREVIEW (R25 to R35): the segment that a record carries, what each of the eight checks finds, the eviction candidate, and
the place of an accepted segment in its list. -/

namespace Sys2Proof.Machine

/-! ## The segment of a record (R18, R28) -/

theorem heightInRange_iff {h : Int} : heightInRange h = true ↔ -100 ≤ h ∧ h ≤ 100 := by
  simp [heightInRange]

/-- The range items of check 4, one by one. -/
theorem fieldsInRange_iff {g : Segment} {options : Byte} :
    fieldsInRange g options = true ↔
      g.tag ≠ 0 ∧ 10 ≤ g.length ∧ g.length ≤ 2000 ∧ -100 ≤ g.amplitude ∧ g.amplitude ≤ 100 ∧ g.confidence ≤ 15
        ∧ options.toNat < 8 ∧ (∀ o, g.override = some o → o.front ≤ 1000 ∧ o.rear ≤ 1000)
        ∧ (∀ i, g.roughIntensity = some i → i ≤ 15 ∧ g.kind = .rough) ∧ g.samples.length ≤ 8
        ∧ ∀ h ∈ g.samples, -100 ≤ h ∧ h ≤ 100 := by
  simp only [fieldsInRange, Bool.and_eq_true, bne_iff_ne, ne_eq, decide_eq_true_eq, heightInRange_iff, Option.all_eq_true,
    List.all_eq_true, and_assoc]

/-- The segment that a record carries on a track and of a kind, before its fields are checked. -/
def carriedSegment (r : SegmentRecord) (track : Track) (kind : Kind) : Segment :=
  { tag := r.tag, track, kind, start := r.start, length := r.length.toNat, amplitude := r.amplitude.toInt
    confidence := r.confidence.toNat, report := r.options.getLsbD 0
    override := if r.options.getLsbD 1 = true then some ⟨r.overrideFront.toNat, r.overrideRear.toNat⟩ else none
    roughIntensity := if r.options.getLsbD 2 = true then some r.roughIntensity.toNat else none
    samples := r.samples.map BitVec.toInt }

theorem segmentOf_eq_some {r : SegmentRecord} {g : Segment} :
    segmentOf r = some g ↔ trackOf r.track = some g.track ∧ kindOf r.kind = some g.kind ∧ g = carriedSegment r g.track g.kind
      ∧ fieldsInRange g r.options = true := by
  unfold segmentOf
  cases track : trackOf r.track with
  | none => simp
  | some t =>
    cases kind : kindOf r.kind with
    | none => simp
    | some k =>
      show (if fieldsInRange (carriedSegment r t k) r.options then some (carriedSegment r t k) else none) = some g ↔ _
      constructor
      · intro h
        split at h
        · rename_i inRange
          cases h
          exact ⟨rfl, rfl, rfl, inRange⟩
        · cases h
      · rintro ⟨onTrack, ofKind, carried, inRange⟩
        obtain rfl : t = g.track := Option.some.inj onTrack
        obtain rfl : k = g.kind := Option.some.inj ofKind
        rw [← carried, if_pos inRange]

/-- The fields of a carried segment are in range exactly where those of its record are (R18, R28). -/
theorem fieldsInRange_carriedSegment {r : SegmentRecord} {track : Track} {kind : Kind} :
    fieldsInRange (carriedSegment r track kind) r.options = true ↔
      r.tag ≠ 0 ∧ 10 ≤ r.length.toNat ∧ r.length.toNat ≤ 2000 ∧ -100 ≤ r.amplitude.toInt ∧ r.amplitude.toInt ≤ 100
        ∧ r.confidence.toNat ≤ 15 ∧ r.options.toNat < 8
        ∧ (r.options.getLsbD 1 = true → r.overrideFront.toNat ≤ 1000 ∧ r.overrideRear.toNat ≤ 1000)
        ∧ (r.options.getLsbD 2 = true → r.roughIntensity.toNat ≤ 15 ∧ kind = .rough)
        ∧ r.samples.length ≤ 8 ∧ ∀ h ∈ r.samples, -100 ≤ h.toInt ∧ h.toInt ≤ 100 := by
  simp [fieldsInRange_iff, carriedSegment]

theorem segmentOf_iff {r : SegmentRecord} {g : Segment} :
    segmentOf r = some g ↔
      r.tag ≠ 0 ∧ trackOf r.track = some g.track ∧ kindOf r.kind = some g.kind
        ∧ 10 ≤ r.length.toNat ∧ r.length.toNat ≤ 2000 ∧ -100 ≤ r.amplitude.toInt ∧ r.amplitude.toInt ≤ 100
        ∧ r.confidence.toNat ≤ 15 ∧ r.options.toNat < 8
        ∧ (r.options.getLsbD 1 = true → r.overrideFront.toNat ≤ 1000 ∧ r.overrideRear.toNat ≤ 1000)
        ∧ (r.options.getLsbD 2 = true → r.roughIntensity.toNat ≤ 15 ∧ g.kind = .rough)
        ∧ r.samples.length ≤ 8 ∧ (∀ h ∈ r.samples, -100 ≤ h.toInt ∧ h.toInt ≤ 100)
        ∧ g = carriedSegment r g.track g.kind := by
  have fields (carried : g = carriedSegment r g.track g.kind) : fieldsInRange g r.options = true ↔ _ :=
    (iff_of_eq (congrArg (fun h => fieldsInRange h r.options = true) carried)).trans fieldsInRange_carriedSegment
  rw [segmentOf_eq_some]
  constructor
  · rintro ⟨track, kind, carried, inRange⟩
    obtain ⟨tag, long, short, low, high, confidence, options, override, rough, few, heights⟩ := (fields carried).1 inRange
    exact ⟨tag, track, kind, long, short, low, high, confidence, options, override, rough, few, heights, carried⟩
  · rintro ⟨tag, track, kind, long, short, low, high, confidence, options, override, rough, few, heights, carried⟩
    exact ⟨track, kind, carried,
      (fields carried).2 ⟨tag, long, short, low, high, confidence, options, override, rough, few, heights⟩⟩

/-- What check 4 makes sure of in the segment that a record carries. -/
theorem segmentOf_some {r : SegmentRecord} {g : Segment} (h : segmentOf r = some g) :
    g.tag = r.tag ∧ g.tag ≠ 0 ∧ 10 ≤ g.length ∧ g.length ≤ 2000 := by
  obtain ⟨_, _, carried, inRange⟩ := segmentOf_eq_some.1 h
  obtain ⟨tag, long, short, _⟩ := fieldsInRange_iff.1 inRange
  exact ⟨congrArg Segment.tag carried, tag, long, short⟩

/-! ## Checks 1 to 4 (R25 to R28) -/

section Record

variable {s : State} {r : SegmentRecord}

theorem State.trackUnlocked_of_track {t : Track} (track : trackOf r.track = some t) :
    s.trackUnlocked r = true ↔ (s.tod.get t).lock ≠ .locked := by
  rw [State.trackUnlocked, track]
  exact bne_iff_ne

theorem State.trackUnlocked_of_none (track : trackOf r.track = none) : s.trackUnlocked r = false := by
  rw [State.trackUnlocked, track]

theorem State.tooFarAhead_iff {g : Segment} :
    s.tooFarAhead g = true ↔ 250000 < difference g.start (s.tod.get g.track).position
      ∧ difference g.start (s.tod.get g.track).position < 2147483648 := by
  rw [State.tooFarAhead, Bool.and_eq_true, ahead_iff, decide_eq_true_iff]
  unfold difference State.frontPosition Config.lookAhead
  omega

theorem State.inRange_of_none (none : segmentOf r = none) : s.inRange r = Option.none := by
  rw [State.inRange, none]

theorem State.inRange_of_some {g : Segment} (some : segmentOf r = some g) :
    s.inRange r = if s.tooFarAhead g then none else Option.some g := by
  rw [State.inRange, some]

theorem State.judgeRecord_notRun (notRun : s.mdc.mode ≠ .run) : s.judgeRecord r = .refused .mode := if_pos notRun

variable (run : s.mdc.mode = .run)

include run

theorem State.judgeRecord_notActive (notActive : s.pvs.preview ≠ .active) : s.judgeRecord r = .refused .suspended := by
  rw [State.judgeRecord, if_neg (not_not_intro run), if_pos notActive]

variable (active : s.pvs.preview = .active)

include active

theorem State.judgeRecord_unlocked (unlocked : s.trackUnlocked r = true) : s.judgeRecord r = .refused .unlockedTrack := by
  rw [State.judgeRecord, if_neg (not_not_intro run), if_neg (not_not_intro active), if_pos unlocked]

theorem State.judgeRecord_outOfRange (onTrack : s.trackUnlocked r = false) (out : s.inRange r = none) :
    s.judgeRecord r = .refused .range := by
  rw [State.judgeRecord, if_neg (not_not_intro run), if_neg (not_not_intro active), if_neg (by simp [onTrack]), out]

theorem State.judgeRecord_inRange {g : Segment} (onTrack : s.trackUnlocked r = false) (within : s.inRange r = some g) :
    s.judgeRecord r = s.judgeSegment g := by
  rw [State.judgeRecord, if_neg (not_not_intro run), if_neg (not_not_intro active), if_neg (by simp [onTrack]), within]

end Record

theorem State.judgeSegment_ne_suspended (s : State) (g : Segment) : s.judgeSegment g ≠ .refused .suspended := by
  unfold State.judgeSegment
  repeat' split
  all_goals exact fun same => by cases same

/-- In RUN with preview ACTIVE no record is refused SUSPENDED, and out of RUN it is refused MODE. -/
theorem State.judgeRecord_ne_suspended {s : State} (resumed : s.mdc.mode = .run → s.pvs.preview = .active)
    (r : SegmentRecord) : s.judgeRecord r ≠ .refused .suspended := by
  by_cases run : s.mdc.mode = .run
  · cases unlocked : s.trackUnlocked r with
    | true =>
      rw [State.judgeRecord_unlocked run (resumed run) unlocked]
      exact fun same => by cases same
    | false =>
      cases inRange : s.inRange r with
      | none =>
        rw [State.judgeRecord_outOfRange run (resumed run) unlocked inRange]
        exact fun same => by cases same
      | some g =>
        rw [State.judgeRecord_inRange run (resumed run) unlocked inRange]
        exact s.judgeSegment_ne_suspended g
  · rw [State.judgeRecord_notRun run]
    exact fun same => by cases same

/-! ## The request and its reply (R25, R35) -/

theorem length_bodyOfRecord (r : SegmentRecord) : (bodyOfRecord r).length = 19 + r.samples.length := by
  simp [bodyOfRecord, bytesOfWord, bytesOfHalf]
  omega

/-- A delivered PREVIEW is judged, and its reply placed. -/
theorem exec_preview {s : State} (h : s.delivers) {r : SegmentRecord} (few : r.samples.length ≤ 8) :
    exec (.preview r) s = .next ((judgePreview r s.delivered).1.place (.reply (judgePreview r s.delivered).2)) := by
  have permitted : RequestKind.permits .preview (bodyOfRecord r).length = true := by
    rw [length_bodyOfRecord, RequestKind.permits, Bool.and_eq_true, decide_eq_true_eq, decide_eq_true_eq]
    omega
  exact congrArg Host.Outcome.next
    ((State.takeRequestOfLength_permitted s permitted _).trans (State.takeRequest_delivers h (judgePreview r)))

theorem judgePreview_refused {s : State} {r : SegmentRecord} {code : ReplyCode} (h : s.judgeRecord r = .refused code) :
    judgePreview r s = (s, .preview code r.tag 0 []) := by
  rw [judgePreview, h]

theorem judgePreview_accepted {s : State} {r : SegmentRecord} {g : Segment} {evicted : Option Slot}
    (h : s.judgeRecord r = .accepted g evicted) :
    judgePreview r s = (s.setPvs (s.pvs.accept g evicted),
      .preview .ok r.tag ((evicted.map fun x => x.segment.tag).getD 0) ((s.superseded g).map fun x => x.segment.tag)) := by
  rw [judgePreview, h]

/-- Settles O32: the checks in order by the equations of `State.judgeRecord`, the segment by `segmentOf_iff`. -/
theorem previewPassesFourChecksOrIsRefused : Obligations.PreviewPassesFourChecksOrIsRefused := by
  refine ⟨fun s r delivers few => ⟨?_, fun code refused => ?_⟩, fun s r => ⟨?_, ?_, fun run active => ⟨?_, ?_, ?_⟩⟩,
    fun r g => segmentOf_iff⟩
  · exact State.judgeRecord_ne_suspended (fun run => by rw [State.delivered_preview, if_pos (by simpa using run)]) r
  · rw [exec_preview delivers few, judgePreview_refused refused]
  · exact State.judgeRecord_notRun
  · exact State.judgeRecord_notActive
  · exact fun t track unlocked => State.judgeRecord_unlocked run active ((State.trackUnlocked_of_track track).2 unlocked)
  · intro noTrack
    refine State.judgeRecord_outOfRange run active (State.trackUnlocked_of_none noTrack) (State.inRange_of_none ?_)
    cases read : segmentOf r with
    | none => rfl
    | some g => cases noTrack.symm.trans (segmentOf_track read)
  · intro t track locked
    have onTrack : s.trackUnlocked r = false := by
      rw [← Bool.not_eq_true, State.trackUnlocked_of_track track]
      exact not_not_intro locked
    refine ⟨fun none => State.judgeRecord_outOfRange run active onTrack (State.inRange_of_none none), fun g read => ?_⟩
    obtain rfl : g.track = t := Option.some.inj ((segmentOf_track read).symm.trans track)
    refine ⟨fun far near => ?_, fun within => ?_⟩
    · refine State.judgeRecord_outOfRange run active onTrack ?_
      rw [State.inRange_of_some read, if_pos (State.tooFarAhead_iff.2 ⟨far, near⟩)]
    · refine State.judgeRecord_inRange run active onTrack ?_
      rw [State.inRange_of_some read, if_neg (fun tooFar => ?_)]
      obtain ⟨far, near⟩ := State.tooFarAhead_iff.1 tooFar
      omega

end Sys2Proof.Machine
end

section
/-! PREVIEW (R28 to R35): checks 5 to 8, the eviction candidate, and what acceptance does to the store. -/

namespace Sys2Proof.Machine

/-! ## Checks 5 to 8 (R28 to R33) -/

theorem SlotState.committed_iff {st : SlotState} : st.committed = true ↔ st ≠ .pending := by
  cases st <;> simp [SlotState.committed]

theorem Slot.supersededBy_iff {x : Slot} {g : Segment} :
    x.supersededBy g = true ↔ x.state = .pending ∧ x.segment.track = g.track ∧ x.segment.overlaps g = true := by
  simp only [Slot.supersededBy, Bool.and_eq_true, beq_iff_eq, and_assoc]

section Checks

variable {s : State} {g : Segment}

theorem State.tooLate_iff :
    s.tooLate g = true ↔ ahead g.start (s.tod.get g.track).position = false ∨ ahead g.start (s.leadReach g) = false := by
  simp only [State.tooLate, State.frontPosition, Bool.or_eq_true, Bool.not_eq_true']

theorem State.overlapsCommitted_iff :
    s.overlapsCommitted g = true ↔ ∃ x ∈ s.pvs.lists.get g.track, x.state ≠ .pending ∧ x.segment.overlaps g = true := by
  simp only [State.overlapsCommitted, List.any_eq_true, Bool.and_eq_true, SlotState.committed_iff]

theorem State.tagTaken_iff :
    s.tagTaken g = true ↔ ∃ x ∈ s.pvs.held, x.segment.tag = g.tag ∧ ¬x.supersededBy g = true := by
  simp only [State.tagTaken, List.any_eq_true, Bool.and_eq_true, beq_iff_eq, Bool.not_eq_true', Bool.not_eq_true]

/-- The new segment has a place without an eviction: a FREE slot, or that of a segment that it supersedes (R32). -/
def State.roomFor (s : State) (g : Segment) : Prop :=
  s.pvs.held.length < 64 ∨ ∃ x ∈ s.pvs.lists.get g.track, x.supersededBy g = true

theorem State.roomFor_iff : 1 ≤ s.pvs.free + (s.superseded g).length ↔ s.roomFor g := by
  have supersedes : 1 ≤ (s.superseded g).length ↔ ∃ x ∈ s.pvs.lists.get g.track, x.supersededBy g = true := by
    rw [State.superseded, length_inStartOrder, Nat.one_le_iff_ne_zero, ne_eq, List.length_eq_zero_iff,
      List.filter_eq_nil_iff]
    simp
  rw [State.roomFor, ← supersedes, Store.free, Config.slotCount]
  omega

theorem State.judgeSegment_late (late : s.tooLate g = true ∨ s.overlapsCommitted g = true) :
    s.judgeSegment g = .refused .late := by
  unfold State.judgeSegment
  by_cases first : s.tooLate g = true
  · rw [if_pos first]
  · rw [if_neg first, if_pos (late.resolve_left first)]

variable (inTime : ¬(s.tooLate g = true ∨ s.overlapsCommitted g = true))

include inTime

theorem State.judgeSegment_dupTag (taken : s.tagTaken g = true) : s.judgeSegment g = .refused .dupTag := by
  obtain ⟨first, second⟩ := not_or.1 inTime
  rw [State.judgeSegment, if_neg first, if_neg second, if_pos taken]

variable (new : ¬s.tagTaken g = true)

include new

theorem State.judgeSegment_roomy (room : s.roomFor g) : s.judgeSegment g = .accepted g none := by
  obtain ⟨first, second⟩ := not_or.1 inTime
  rw [State.judgeSegment, if_neg first, if_neg second, if_neg new, if_pos (State.roomFor_iff.2 room)]

variable (crowded : ¬s.roomFor g)

include crowded

theorem State.judgeSegment_evicts {x : Slot} (evicts : s.evictable g = some x) :
    s.judgeSegment g = .accepted g (some x) := by
  obtain ⟨first, second⟩ := not_or.1 inTime
  rw [State.judgeSegment, if_neg first, if_neg second, if_neg new, if_neg (mt State.roomFor_iff.1 crowded), evicts]

theorem State.judgeSegment_full (evicts : s.evictable g = none) : s.judgeSegment g = .refused .full := by
  obtain ⟨first, second⟩ := not_or.1 inTime
  rw [State.judgeSegment, if_neg first, if_neg second, if_neg new, if_neg (mt State.roomFor_iff.1 crowded), evicts]

end Checks

/-! ## The eviction candidate (R33) -/

/-- The slot farthest ahead, and of those equally far the first one. -/
theorem State.foldl_fartherAhead (s : State) (b : Slot) (xs : List Slot) :
    ∃ x earlier later, xs.foldl s.fartherAhead (some b) = some x ∧ b :: xs = earlier ++ x :: later
      ∧ (∀ y ∈ earlier, s.distanceAhead y.segment < s.distanceAhead x.segment)
      ∧ ∀ y ∈ later, s.distanceAhead y.segment ≤ s.distanceAhead x.segment := by
  induction xs generalizing b with
  | nil => exact ⟨b, [], [], rfl, rfl, by simp, by simp⟩
  | cons y ys ih =>
    rw [List.foldl_cons, State.fartherAhead]
    split
    · rename_i farther
      obtain ⟨x, earlier, later, found, order, nearer, noFarther⟩ := ih y
      have reach : s.distanceAhead y.segment ≤ s.distanceAhead x.segment := by
        have listed : y ∈ earlier ++ x :: later := order ▸ List.mem_cons_self
        rcases List.mem_append.1 listed with mem | mem
        · exact Nat.le_of_lt (nearer y mem)
        · rcases List.mem_cons.1 mem with rfl | mem
          · exact Nat.le_refl _
          · exact noFarther y mem
      refine ⟨x, b :: earlier, later, found, by rw [order]; rfl, fun z mem => ?_, noFarther⟩
      rcases List.mem_cons.1 mem with rfl | mem
      · omega
      · exact nearer z mem
    · rename_i notFarther
      obtain ⟨x, earlier, later, found, order, nearer, noFarther⟩ := ih b
      cases earlier with
      | nil =>
        obtain ⟨rfl, rfl⟩ := List.cons.inj order
        refine ⟨b, [], y :: ys, found, rfl, by simp, fun z mem => ?_⟩
        rcases List.mem_cons.1 mem with rfl | mem
        · omega
        · exact noFarther z mem
      | cons c earlier =>
        obtain ⟨rfl, rfl⟩ := List.cons.inj order
        have first := nearer b List.mem_cons_self
        refine ⟨x, b :: y :: earlier, later, found, rfl, fun z mem => ?_, noFarther⟩
        rcases List.mem_cons.1 mem with rfl | mem
        · exact first
        · rcases List.mem_cons.1 mem with rfl | mem
          · omega
          · exact nearer z (List.mem_cons_of_mem b mem)

/-- A slot that comes first among the farthest of two lists is of the first list where that holds one as far. -/
theorem mem_left_of_first {left right earlier later : List Slot} {x : Slot} {far : Slot → Nat}
    (order : left ++ right = earlier ++ x :: later) (nearer : ∀ y ∈ earlier, far y < far x) {y : Slot} (mem : y ∈ left)
    (same : far y = far x) : x ∈ left := by
  rcases List.append_eq_append_iff.1 order with ⟨more, rfl, _⟩ | ⟨more, rfl, rest⟩
  · have := nearer y (List.mem_append_left _ mem)
    omega
  · cases more with
    | nil =>
      have := nearer y (by simpa using mem)
      omega
    | cons z more =>
      obtain ⟨rfl, _⟩ := List.cons.inj rest
      simp

/-- The candidate is a PENDING segment than which none is farther ahead; of those as far, one of LEFT comes first. -/
theorem State.evictionCandidate_some {s : State} {x : Slot} (found : s.evictionCandidate = some x) :
    x ∈ s.pvs.held ∧ x.state = .pending
      ∧ (∀ y ∈ s.pvs.held, y.state = .pending → s.distanceAhead y.segment ≤ s.distanceAhead x.segment)
      ∧ ∀ y ∈ s.pvs.lists.left, y.state = .pending → s.distanceAhead y.segment = s.distanceAhead x.segment →
        x ∈ s.pvs.lists.left := by
  have split : (s.pvs.held.filter fun x => x.state = .pending)
      = s.pvs.lists.left.filter (fun x => x.state = .pending) ++ s.pvs.lists.right.filter fun x => x.state = .pending :=
    List.filter_append ..
  cases pending : s.pvs.held.filter fun x => x.state = .pending with
  | nil =>
    rw [State.evictionCandidate, pending] at found
    cases found
  | cons b xs =>
    obtain ⟨z, earlier, later, last, order, nearer, noFarther⟩ := s.foldl_fartherAhead b xs
    rw [State.evictionCandidate, pending] at found
    obtain rfl : z = x := Option.some.inj (last.symm.trans found)
    have all : (s.pvs.held.filter fun x => x.state = .pending) = earlier ++ z :: later := pending.trans order
    have listed {y : Slot} : y ∈ s.pvs.held ∧ y.state = .pending ↔ y ∈ earlier ++ z :: later := by
      rw [← all, List.mem_filter, decide_eq_true_iff]
    obtain ⟨mem, isPending⟩ := listed.2 (List.mem_append_right _ List.mem_cons_self)
    refine ⟨mem, isPending, fun y memY pendingY => ?_, fun y memY pendingY same => ?_⟩
    · rcases List.mem_append.1 (listed.1 ⟨memY, pendingY⟩) with mem | mem
      · exact Nat.le_of_lt (nearer y mem)
      · rcases List.mem_cons.1 mem with rfl | mem
        · exact Nat.le_refl _
        · exact noFarther y mem
    · refine (List.mem_filter.1 (mem_left_of_first (split.symm.trans all) nearer ?_ same)).1
      exact List.mem_filter.2 ⟨memY, by simpa using pendingY⟩

theorem State.evictionCandidate_ne_none {s : State} {x : Slot} (mem : x ∈ s.pvs.held) (pending : x.state = .pending) :
    s.evictionCandidate ≠ none := by
  rw [State.evictionCandidate]
  cases listed : s.pvs.held.filter fun x => x.state = .pending with
  | nil => exact absurd pending (by simpa using List.filter_eq_nil_iff.1 listed x mem)
  | cons b xs =>
    obtain ⟨y, _, _, found, _⟩ := s.foldl_fartherAhead b xs
    rw [List.foldl_cons, State.fartherAhead, found]
    exact Option.some_ne_none y

section Evictable

variable {s : State} {g : Segment}

theorem State.evictable_some {x : Slot} :
    s.evictable g = some x ↔ s.evictionCandidate = some x ∧ s.distanceAhead g < s.distanceAhead x.segment := by
  unfold State.evictable
  cases s.evictionCandidate with
  | none => simp
  | some y =>
    rw [Option.ite_none_right_eq_some, Option.some_inj]
    constructor
    · rintro ⟨farther, rfl⟩
      exact ⟨rfl, farther⟩
    · rintro ⟨rfl, farther⟩
      exact ⟨farther, rfl⟩

/-- With every PENDING segment no farther ahead than the new one none is evicted. -/
theorem State.evictable_none (near : ∀ x ∈ s.pvs.held, x.state = .pending →
    s.distanceAhead x.segment ≤ s.distanceAhead g) : s.evictable g = none := by
  cases found : s.evictable g with
  | none => rfl
  | some x =>
    obtain ⟨candidate, farther⟩ := State.evictable_some.1 found
    obtain ⟨mem, pending, _⟩ := State.evictionCandidate_some candidate
    have := near x mem pending
    omega

/-- With a PENDING segment farther ahead than the new one the candidate is evicted. -/
theorem State.evictable_of_farther {x : Slot} (mem : x ∈ s.pvs.held) (pending : x.state = .pending)
    (farther : s.distanceAhead g < s.distanceAhead x.segment) :
    ∃ y, s.evictionCandidate = some y ∧ s.evictable g = some y := by
  cases candidate : s.evictionCandidate with
  | none => exact absurd candidate (State.evictionCandidate_ne_none mem pending)
  | some y =>
    obtain ⟨_, _, farthest, _⟩ := State.evictionCandidate_some candidate
    have := farthest x mem pending
    exact ⟨y, rfl, State.evictable_some.2 ⟨candidate, by omega⟩⟩

end Evictable

/-! ## The place of the new segment (R34) -/

/-- A slot is placed before the first of a list that its start comes before. -/
theorem insertByStart_split (x : Slot) (ys : List Slot) :
    ∃ earlier later, earlier ++ later = ys ∧ insertByStart x ys = earlier ++ x :: later
      ∧ (∀ y ∈ earlier, before x.segment.start y.segment.start = false)
      ∧ ∀ y, later.head? = some y → before x.segment.start y.segment.start = true := by
  induction ys with
  | nil => exact ⟨[], [], rfl, rfl, by simp, by simp⟩
  | cons y ys ih =>
    rw [insertByStart]
    split
    · rename_i here
      refine ⟨[], y :: ys, rfl, rfl, by simp, fun z first => ?_⟩
      cases first
      exact here
    · rename_i past
      obtain ⟨earlier, later, rfl, placed, behind, next⟩ := ih
      refine ⟨y :: earlier, later, rfl, by rw [placed]; rfl, fun z mem => ?_, next⟩
      rcases List.mem_cons.1 mem with rfl | mem
      · simpa using past
      · exact behind z mem

/-- A slot stays at the acceptance of a segment: it is not superseded and not evicted (R34). -/
def Slot.staysAt (x : Slot) (g : Segment) (evicted : Option Slot) : Bool :=
  !x.supersededBy g && evicted.all fun y => x.serial != y.serial

theorem Slot.staysAt_iff {x : Slot} {g : Segment} {evicted : Option Slot} :
    x.staysAt g evicted = true ↔ ¬x.supersededBy g = true ∧ ∀ y, evicted = some y → x.serial ≠ y.serial := by
  simp only [Slot.staysAt, Bool.and_eq_true, Bool.not_eq_true', Bool.not_eq_true, Option.all_eq_true, bne_iff_ne, ne_eq]

section Accept

variable (p : Store) (g : Segment) (evicted : Option Slot)

theorem Store.staying_eq (t : Track) : p.staying g evicted t = (p.lists.get t).filter fun x => x.staysAt g evicted := rfl

theorem Store.accept_list_own :
    (p.accept g evicted).lists.get g.track
      = arrange (insertByStart (Slot.accepted p.nextSerial g) (p.staying g evicted g.track)) := by
  simp [Store.accept]

theorem Store.accept_list_other {t : Track} (other : t ≠ g.track) :
    (p.accept g evicted).lists.get t = arrange (p.staying g evicted t) := by
  simp [Store.accept, other]

/-- The own list of an accepted segment gains it, the other gains none; of both, the slots that stay are left (R34). -/
theorem Store.accept_list_perm (t : Track) :
    ((p.accept g evicted).lists.get t).Perm
      (if t = g.track then Slot.accepted p.nextSerial g :: p.staying g evicted t else p.staying g evicted t) := by
  split
  · rename_i own
    rw [own, Store.accept_list_own]
    exact (arrange_perm _).trans (insertByStart_perm _ _)
  · rename_i other
    rw [Store.accept_list_other p g evicted other]
    exact arrange_perm _

theorem Store.mem_accept_list {t : Track} {y : Slot} :
    y ∈ (p.accept g evicted).lists.get t ↔
      (t = g.track ∧ y = Slot.accepted p.nextSerial g) ∨ y ∈ p.staying g evicted t := by
  rw [(p.accept_list_perm g evicted t).mem_iff]
  by_cases own : t = g.track <;> simp [own]

end Accept

/-! ## The superseded segments (R31, R35) -/

/-- A position comes before another carried forward a little way where it lies in that way, or behind it (R1). -/
theorem before_forward_iff (a b : Position) {n : Nat} (short : n ≤ 2000) :
    before a (forward b n) = true ↔ (a - b).toNat < n ∨ 2147483648 + n ≤ (a - b).toNat := by
  have carried : (a - forward b n).toNat = ((a - b).toNat + (4294967296 - n)) % 4294967296 := by
    simp only [forward, BitVec.toNat_sub, BitVec.toNat_add, BitVec.toNat_ofNat]
    omega
  rw [before_iff, carried]
  omega

/-- The distance the other way round (R1). -/
theorem toNat_sub_swap (a b : Position) :
    ((a - b).toNat = 0 ∧ (b - a).toNat = 0) ∨ (b - a).toNat + (a - b).toNat = 4294967296 := by
  simp only [BitVec.toNat_sub]
  omega

theorem Segment.overlaps_iff {g h : Segment} (shortG : g.length ≤ 2000) (shortH : h.length ≤ 2000) :
    g.overlaps h = true ↔
      ((g.start - h.start).toNat < h.length ∨ 2147483648 + h.length ≤ (g.start - h.start).toNat)
        ∧ ((h.start - g.start).toNat < g.length ∨ 2147483648 + g.length ≤ (h.start - g.start).toNat) := by
  rw [Segment.overlaps, Bool.and_eq_true, Segment.finish, Segment.finish, before_forward_iff _ _ shortH,
    before_forward_iff _ _ shortG]

/-- Segments of lengths in range that overlap one segment all start within half the range of positions (R1, R18, R21). -/
theorem Segment.near_of_overlaps {g h : Segment} (overlaps : h.overlaps g = true) (longG : 10 ≤ g.length)
    (shortG : g.length ≤ 2000) (shortH : h.length ≤ 2000) : (h.start - backward g.start 2000).toNat < 2147483648 := by
  have far : (h.start - backward g.start 2000).toNat = ((h.start - g.start).toNat + 2000) % 4294967296 := by
    simp only [backward, BitVec.toNat_sub, BitVec.toNat_ofNat]
    omega
  have turn := toNat_sub_swap h.start g.start
  rw [Segment.overlaps_iff shortH shortG] at overlaps
  omega

/-- Segments of the least length or more that do not overlap start apart (R18, R21). -/
theorem Segment.start_ne_of_apart {g h : Segment} (apart : g.overlaps h = false) (longG : 10 ≤ g.length)
    (shortG : g.length ≤ 2000) (longH : 10 ≤ h.length) (shortH : h.length ≤ 2000) : g.start ≠ h.start := by
  intro same
  have overlaps : g.overlaps h = true := by
    rw [Segment.overlaps_iff shortG shortH, same, BitVec.sub_self, BitVec.toNat_zero]
    omega
  rw [overlaps] at apart
  cases apart

/-- The lengths of a sound store's segments, list by list (R18). -/
theorem Store.length_of_sound {p : Store} (sound : p.sound) {t : Track} {x : Slot} (mem : x ∈ p.lists.get t) :
    10 ≤ x.segment.length ∧ x.segment.length ≤ 2000 :=
  have ⟨_, _, _, _, _, lengths⟩ := sound
  lengths x (Store.mem_held_of_mem mem)

/-- The starts of a sound store's list are all different (R21). -/
theorem Store.starts_ne_of_sound {p : Store} (sound : p.sound) (t : Track) :
    (p.lists.get t).Pairwise fun x y => x.segment.start ≠ y.segment.start := by
  have ⟨_, _, _, _, apart, _⟩ := sound
  refine (apart t).imp_of_mem fun {x y} memX memY apart => ?_
  obtain ⟨longX, shortX⟩ := Store.length_of_sound sound memX
  obtain ⟨longY, shortY⟩ := Store.length_of_sound sound memY
  exact Segment.start_ne_of_apart apart longX shortX longY shortY

/-- The superseded slots of a sound store are in ascending order of start (R35). -/
theorem State.superseded_ascending {s : State} (sound : s.pvs.sound) {g : Segment} (long : 10 ≤ g.length)
    (short : g.length ≤ 2000) :
    (s.superseded g).Pairwise fun x y => ahead y.segment.start x.segment.start = true := by
  refine inStartOrder_ascending (backward g.start 2000) (fun x mem => ?_)
    ((Store.starts_ne_of_sound sound g.track).sublist List.filter_sublist)
  obtain ⟨listed, supersedes⟩ := List.mem_filter.1 mem
  obtain ⟨_, _, overlaps⟩ := Slot.supersededBy_iff.1 supersedes
  exact Segment.near_of_overlaps overlaps long short (Store.length_of_sound sound listed).2

/-! ## What an accepted record is (R25) -/

/-- A record is accepted for the segment that it carries, which passes checks 5 to 8. -/
theorem State.judgeRecord_accepted_segment {s : State} {r : SegmentRecord} {g : Segment} {evicted : Option Slot}
    (h : s.judgeRecord r = .accepted g evicted) : segmentOf r = some g ∧ s.judgeSegment g = .accepted g evicted := by
  obtain ⟨run, active, _⟩ := State.judgeRecord_accepted h
  cases unlocked : s.trackUnlocked r with
  | true => cases (State.judgeRecord_unlocked run active unlocked).symm.trans h
  | false =>
    cases inRange : s.inRange r with
    | none => cases (State.judgeRecord_outOfRange run active unlocked inRange).symm.trans h
    | some f =>
      have judged := (State.judgeRecord_inRange run active unlocked inRange).symm.trans h
      obtain rfl : g = f := State.judgeSegment_accepted judged
      refine ⟨?_, judged⟩
      cases read : segmentOf r with
      | none => cases (State.inRange_of_none read).symm.trans inRange
      | some f =>
        rw [State.inRange_of_some read, Option.ite_none_left_eq_some] at inRange
        exact inRange.2

/-- What checks 5 to 8 make sure of at an acceptance (R28 to R33). -/
theorem State.judgeSegment_accepted_cases {s : State} {g : Segment} {evicted : Option Slot}
    (h : s.judgeSegment g = .accepted g evicted) :
    (∀ x ∈ s.pvs.lists.get g.track, x.state ≠ .pending → x.segment.overlaps g = false)
      ∧ (∀ x ∈ s.pvs.held, x.segment.tag = g.tag → x.supersededBy g = true)
      ∧ (s.roomFor g ∧ evicted = none
        ∨ ∃ x, evicted = some x ∧ s.evictionCandidate = some x) := by
  by_cases late : s.tooLate g = true ∨ s.overlapsCommitted g = true
  · cases (State.judgeSegment_late late).symm.trans h
  by_cases taken : s.tagTaken g = true
  · cases (State.judgeSegment_dupTag late taken).symm.trans h
  refine ⟨fun x mem committed => ?_, fun x mem tag => ?_, ?_⟩
  · rw [← Bool.not_eq_true]
    exact fun overlaps => late (.inr (State.overlapsCommitted_iff.2 ⟨x, mem, committed, overlaps⟩))
  · exact Decidable.not_not.1 fun stays => taken (State.tagTaken_iff.2 ⟨x, mem, tag, stays⟩)
  · by_cases room : s.roomFor g
    · cases (State.judgeSegment_roomy late taken room).symm.trans h
      exact .inl ⟨room, rfl⟩
    · cases evicts : s.evictable g with
      | none => cases (State.judgeSegment_full late taken room evicts).symm.trans h
      | some x =>
        cases (State.judgeSegment_evicts late taken room evicts).symm.trans h
        exact .inr ⟨x, rfl, (State.evictable_some.1 evicts).1⟩

/-! ## The statement -/

/-- What an acceptance replies: the evicted segment's tag, or 0, and the tags of the superseded ones (R35). -/
theorem exec_preview_accepted {s : State} (h : s.delivers) {r : SegmentRecord} (few : r.samples.length ≤ 8) {g : Segment}
    {evicted : Option Slot} (accepted : s.delivered.judgeRecord r = .accepted g evicted) :
    exec (.preview r) s = .next ((s.delivered.setPvs (s.delivered.pvs.accept g evicted)).place
      (.reply (.preview .ok r.tag ((evicted.map fun x => x.segment.tag).getD 0)
        ((s.delivered.superseded g).map fun x => x.segment.tag)))) := by
  rw [exec_preview h few, judgePreview_accepted accepted]

/-- Settles O33: the checks in order by the equations of `State.judgeSegment`, the candidate as the first of the farthest, and
the lists after acceptance by `insertByStart_split` and `arranges_arrange`. -/
theorem previewIsPlacedWhereThereIsRoom : Obligations.PreviewIsPlacedWhereThereIsRoom := by
  refine ⟨?checks, fun s r g e delivers few accepted => ?reply, fun a b => ⟨rfl, ?_, before_iff⟩, fun a b => ?_,
    fun p g e => ?place, fun p g e t y => ?members⟩
  case checks =>
    intro s g profile reach list gone away late taken roomy
    have goneIff (x : Slot) : x.supersededBy g = true ↔ gone x := Slot.supersededBy_iff
    have lateIff : (s.tooLate g = true ∨ s.overlapsCommitted g = true) ↔ late := by
      rw [State.tooLate_iff, State.overlapsCommitted_iff, or_assoc]
      rfl
    have takenIff : s.tagTaken g = true ↔ taken := by
      simp only [State.tagTaken_iff, goneIff]
      rfl
    have roomyIff : s.roomFor g ↔ roomy := by
      simp only [State.roomFor, goneIff]
      rfl
    rw [← lateIff, ← takenIff, ← roomyIff]
    refine ⟨State.judgeSegment_late, State.judgeSegment_dupTag, State.judgeSegment_roomy, fun inTime new crowded =>
      ⟨fun near => State.judgeSegment_full inTime new crowded (State.evictable_none near), ?_⟩⟩
    rintro ⟨x, mem, pending, farther⟩
    obtain ⟨y, candidate, evicts⟩ := State.evictable_of_farther mem pending farther
    obtain ⟨held, isPending, farthest, leftFirst⟩ := State.evictionCandidate_some candidate
    exact ⟨y, held, State.judgeSegment_evicts inTime new crowded evicts, isPending, farthest, leftFirst⟩
  case reply =>
    obtain ⟨read, _⟩ := State.judgeRecord_accepted_segment accepted
    obtain ⟨_, _, long, short⟩ := segmentOf_some read
    have same : s.delivered.superseded g = s.superseded g := by simp [State.superseded]
    refine ⟨s.superseded g, inStartOrder_perm _, fun sound => State.superseded_ascending sound long short, ?_⟩
    rw [exec_preview_accepted delivers few accepted, same]
    cases e <;> rfl
  · rw [ahead_iff]
    omega
  · rw [Segment.overlaps, Bool.and_eq_true]
    rfl
  case place =>
    refine ⟨?_, fun t other => ?_⟩
    · obtain ⟨earlier, later, all, placed, behind, next⟩ :=
        insertByStart_split (Slot.accepted p.nextSerial g) (p.staying g e g.track)
      refine ⟨earlier, later, all, behind, next, ?_⟩
      rw [Store.accept_list_own, placed]
      exact arranges_arrange _
    · rw [Store.accept_list_other p g e other]
      exact arranges_arrange _
  case members =>
    refine ⟨?_, rfl, rfl⟩
    rw [Store.mem_accept_list, Store.staying_eq, List.mem_filter, Slot.staysAt_iff, Slot.supersededBy_iff]
    rfl

end Sys2Proof.Machine
end

section
/-! What an accepted segment makes of a sound store: the slots that stay, and the new one among them (R21, R22, R34). -/

namespace Sys2Proof.Machine

/-- Of two lists, one has gained a slot. -/
theorem Store.held_perm_of_gain {q r : Store} {u : Track} {x : Slot}
    (lists : ∀ t, (q.lists.get t).Perm (if t = u then x :: r.lists.get t else r.lists.get t)) :
    q.held.Perm (x :: r.held) := by
  have left := lists .left
  have right := lists .right
  cases u with
  | left => exact left.append right
  | right => exact (left.append right).trans List.perm_middle

section Accept

variable {p : Store}

/-- The store with the slots alone that stay at an acceptance (R34). -/
def Store.without (p : Store) (g : Segment) (evicted : Option Slot) : Store :=
  { p with lists := PerTrack.of (p.staying g evicted) }

theorem Store.without_list (p : Store) (g : Segment) (evicted : Option Slot) (t : Track) :
    (p.without g evicted).lists.get t = p.staying g evicted t := PerTrack.get_of _ t

theorem Store.without_held (p : Store) (g : Segment) (evicted : Option Slot) :
    (p.without g evicted).held = p.held.filter fun x => x.staysAt g evicted := (List.filter_append ..).symm

theorem Store.thins_without {α : Type} {key : Slot → α} (p : Store) (g : Segment) (evicted : Option Slot) :
    Store.Thins key p (p.without g evicted) :=
  Store.thins_of_filter (fun x => x.staysAt g evicted) fun t => by
    rw [Store.without_list]
    exact .refl _

theorem Store.accept_held (p : Store) (g : Segment) (evicted : Option Slot) :
    (p.accept g evicted).held.Perm (Slot.accepted p.nextSerial g :: (p.without g evicted).held) :=
  Store.held_perm_of_gain (u := g.track) fun t => by
    rw [Store.without_list]
    exact p.accept_list_perm g evicted t

/-- A slot of the store after an acceptance is the new one, or one that stays. -/
theorem Store.mem_accept_held {g : Segment} {evicted : Option Slot} {x : Slot} (mem : x ∈ (p.accept g evicted).held) :
    x = Slot.accepted p.nextSerial g ∨ x ∈ (p.without g evicted).held :=
  List.mem_cons.1 ((p.accept_held g evicted).mem_iff.1 mem)

theorem Store.named_accept (named : p.named) (g : Segment) (evicted : Option Slot) : (p.accept g evicted).named := by
  obtain ⟨distinct, below⟩ := Store.named_of_thins (p.thins_without g evicted) rfl named
  constructor
  · rw [((p.accept_held g evicted).map _).nodup_iff, List.map_cons, List.nodup_cons]
    refine ⟨fun taken => ?_, distinct⟩
    obtain ⟨x, mem, same⟩ := List.mem_map.1 taken
    have old : x.serial < p.nextSerial := below x mem
    have new : x.serial = p.nextSerial := same
    omega
  · intro x mem
    rcases Store.mem_accept_held mem with rfl | mem
    · exact Nat.lt_succ_self _
    · exact Nat.lt_succ_of_lt (below x mem)

theorem Store.placed_accept (placed : p.placed) (g : Segment) (evicted : Option Slot) : (p.accept g evicted).placed := by
  obtain ⟨waits, distinct⟩ := Store.placed_of_thins (p.thins_without g evicted) rfl placed
  constructor
  · intro x mem
    rcases Store.mem_accept_held mem with rfl | mem
    · simp [Slot.accepted]
    · exact waits x mem
  · rw [((p.accept_held g evicted).filterMap _).nodup_iff]
    exact distinct

theorem Store.sound_accept (sound : p.sound) {g : Segment} {evicted : Option Slot} (tag : g.tag ≠ 0) (long : 10 ≤ g.length)
    (short : g.length ≤ 2000) (room : (p.without g evicted).held.length < 64)
    (new : ∀ x ∈ (p.without g evicted).held, x.segment.tag ≠ g.tag)
    (apart : ∀ x ∈ p.staying g evicted g.track, x.segment.overlaps g = false) : (p.accept g evicted).sound := by
  obtain ⟨_, distinct, noZero, own, separate, lengths⟩ := Store.sound_of_thins (p.thins_without g evicted) sound
  have held := p.accept_held g evicted
  have tags : (p.accept g evicted).tags.Perm (g.tag :: (p.without g evicted).tags) := held.map _
  refine ⟨?_, ?_, fun zero => ?_, fun t x mem => ?_, fun t => ?_, fun x mem => ?_⟩
  · rw [held.length_eq, List.length_cons]
    omega
  · rw [tags.nodup_iff, List.nodup_cons]
    refine ⟨fun taken => ?_, distinct⟩
    obtain ⟨x, mem, same⟩ := List.mem_map.1 taken
    exact new x mem same
  · rcases List.mem_cons.1 (tags.mem_iff.1 zero) with same | taken
    · exact tag same.symm
    · exact noZero taken
  · rcases (p.mem_accept_list g evicted).1 mem with ⟨rfl, rfl⟩ | stays
    · rfl
    · exact own t x (by rwa [Store.without_list])
  · have separate := separate t
    rw [Store.without_list] at separate
    rw [(p.accept_list_perm g evicted t).pairwise_iff fun {x y} apart => by
      rwa [Slot.apart, Segment.overlaps_comm]]
    split
    · rename_i here
      refine .cons (fun x mem => ?_) separate
      rw [Slot.apart, Segment.overlaps_comm]
      exact apart x (here ▸ mem)
    · exact separate
  · rcases Store.mem_accept_held mem with rfl | mem
    · exact ⟨long, short⟩
    · exact lengths x mem

end Accept

/-- The store after an accepted PREVIEW is sound where it was before (R21, R22, R30 to R34). -/
theorem Store.healthy_accept {s : State} {r : SegmentRecord} {g : Segment} {evicted : Option Slot} (h : s.pvs.healthy)
    (accepted : s.judgeRecord r = .accepted g evicted) : (s.pvs.accept g evicted).healthy := by
  obtain ⟨sound, placed, named⟩ := h
  have ⟨few, _, _, own, _, _⟩ := sound
  obtain ⟨read, judged⟩ := State.judgeRecord_accepted_segment accepted
  obtain ⟨_, tag, long, short⟩ := segmentOf_some read
  obtain ⟨clear, supersedes, room⟩ := State.judgeSegment_accepted_cases judged
  refine ⟨Store.sound_accept sound tag long short ?_ (fun x mem same => ?_) (fun x mem => ?_),
    Store.placed_accept placed g evicted, Store.named_accept named g evicted⟩
  · have leaves {x : Slot} (mem : x ∈ s.pvs.held) (goes : ¬x.staysAt g evicted = true) :
        (s.pvs.without g evicted).held.length < 64 := by
      have fewer : (s.pvs.without g evicted).held.length < s.pvs.held.length := by
        rw [Store.without_held]
        exact List.length_filter_lt_length_iff_exists.2 ⟨x, mem, goes⟩
      omega
    rcases room with ⟨roomy | ⟨x, mem, superseded⟩, _⟩ | ⟨x, rfl, candidate⟩
    · exact Nat.lt_of_le_of_lt (s.pvs.thins_without (key := Slot.identity) g evicted).length roomy
    · exact leaves (Store.mem_held_of_mem mem) fun stays => (Slot.staysAt_iff.1 stays).1 superseded
    · exact leaves (State.evictionCandidate_some candidate).1 fun stays => (Slot.staysAt_iff.1 stays).2 x rfl rfl
  · rw [Store.without_held, List.mem_filter, Slot.staysAt_iff] at mem
    exact mem.2.1 (supersedes x mem.1 same)
  · rw [Store.staying_eq, List.mem_filter, Slot.staysAt_iff, Slot.supersededBy_iff] at mem
    obtain ⟨listed, stays, _⟩ := mem
    by_cases pending : x.state = .pending
    · rw [← Bool.not_eq_true]
      exact fun overlaps => stays ⟨pending, own g.track x listed, overlaps⟩
    · exact clear x listed pending

end Sys2Proof.Machine
end

section
/-! WITHDRAW (R37), and what a PREVIEW or a WITHDRAW leaves of committed segments (R23). -/

namespace Sys2Proof.Machine

/-! ## WITHDRAW (R37) -/

theorem exec_withdraw {s : State} (h : s.delivers) (tag : Half) :
    exec (.withdraw tag) s = .next ((judgeWithdraw tag s.delivered).1.place (.reply (judgeWithdraw tag s.delivered).2)) :=
  congrArg Host.Outcome.next (State.takeRequest_delivers h (judgeWithdraw tag))

theorem Store.withTag_none {p : Store} {tag : Half} (none : ∀ x ∈ p.held, x.segment.tag ≠ tag) :
    p.withTag tag = Option.none :=
  List.find?_eq_none.2 fun x mem => by simpa using none x mem

/-- Entries of a list that are all seen as different are told apart by what is seen. -/
theorem eq_of_seen_eq {α β : Type} {seen : α → β} {xs : List α} (distinct : (xs.map seen).Nodup) {x y : α} (hx : x ∈ xs)
    (hy : y ∈ xs) (same : seen x = seen y) : x = y := by
  induction xs with
  | nil => cases hx
  | cons z zs ih =>
    obtain ⟨fresh, distinct⟩ := List.nodup_cons.1 distinct
    rcases List.mem_cons.1 hx with rfl | inx <;> rcases List.mem_cons.1 hy with rfl | iny
    · rfl
    · exact absurd (List.mem_map.2 ⟨y, iny, same.symm⟩) fresh
    · exact absurd (List.mem_map.2 ⟨x, inx, same⟩) fresh
    · exact ih distinct inx iny

/-- The slot of a sound store that a tag names. -/
theorem Store.withTag_some {p : Store} (sound : p.sound) {x : Slot} (mem : x ∈ p.held) :
    p.withTag x.segment.tag = some x := by
  have ⟨_, distinct, _⟩ := sound
  cases found : p.withTag x.segment.tag with
  | none => exact absurd (List.find?_eq_none.1 found x mem) (by simp)
  | some y =>
    have same : y.segment.tag = x.segment.tag := by simpa using List.find?_some found
    rw [eq_of_seen_eq (seen := fun z : Slot => z.segment.tag) distinct (List.mem_of_find?_eq_some found) mem same]

section Judged

variable {s : State} {tag : Half}

theorem judgeWithdraw_zero : judgeWithdraw 0 s = (s, .withdraw .range 0) := if_pos rfl

theorem judgeWithdraw_unknown (other : tag ≠ 0) (none : s.pvs.withTag tag = none) :
    judgeWithdraw tag s = (s, .withdraw .unknownTag tag) := by
  rw [judgeWithdraw, if_neg other, none]

theorem judgeWithdraw_late {x : Slot} (other : tag ≠ 0) (named : s.pvs.withTag tag = some x)
    (committed : x.state ≠ .pending) : judgeWithdraw tag s = (s, .withdraw .late tag) := by
  rw [judgeWithdraw, if_neg other, named]
  exact if_pos (SlotState.committed_iff.2 committed)

theorem judgeWithdraw_ok {x : Slot} (other : tag ≠ 0) (named : s.pvs.withTag tag = some x) (pending : x.state = .pending) :
    judgeWithdraw tag s = (s.setPvs (s.pvs.release x.serial), .withdraw .ok tag) := by
  rw [judgeWithdraw, if_neg other, named]
  exact if_neg (mt SlotState.committed_iff.1 (not_not_intro pending))

end Judged

/-- The release of a PENDING segment changes no segment in effect (R57). -/
theorem Store.inEffect_release {p : Store} (named : p.named) {x : Slot} (mem : x ∈ p.held) (pending : x.state = .pending)
    (c : Corner) : (p.release x.serial).inEffect c = p.inEffect c := by
  rw [Store.inEffect, Store.inEffect, Store.release, PerTrack.get_of, inEffectOf_arrange, inEffectOf, inEffectOf,
    List.filter_filter]
  refine congrArg (fun xs => xs.foldl laterStart none) (List.filter_congr fun y listed => ?_)
  cases effect : y.state.isInEffect c.role with
  | false => rfl
  | true =>
    have other : y.serial ≠ x.serial := fun same => by
      rw [eq_of_serial_eq named.1 (Store.mem_held_of_mem listed) mem same, pending] at effect
      cases effect
    simpa using other

/-- Settles O34: the four findings of R37; the slot that a tag names is the one of that tag, as the store is sound. -/
theorem withdrawFreesAPendingSegment : Obligations.WithdrawFreesAPendingSegment := by
  intro s tag delivers sound named refuse
  have ⟨_, _, noZero, _, _, _⟩ := sound
  have lists : s.delivered.pvs.lists = s.pvs.lists := by simp
  have held : s.delivered.pvs.held = s.pvs.held := by rw [Store.held, Store.held, lists]
  have withTag : s.delivered.pvs.withTag tag = s.pvs.withTag tag := by rw [Store.withTag, Store.withTag, held]
  refine ⟨fun zero => ?_, fun other none => ?_, fun x mem carries => ?_⟩
  · subst zero
    rw [exec_withdraw delivers, judgeWithdraw_zero]
  · rw [exec_withdraw delivers, judgeWithdraw_unknown other (withTag.trans (Store.withTag_none none))]
  · subst carries
    have found := withTag.trans (Store.withTag_some sound mem)
    have other : x.segment.tag ≠ 0 := fun zero => noZero (List.mem_map.2 ⟨x, mem, zero⟩)
    refine ⟨fun committed => ?_, fun pending => ?_⟩
    · rw [exec_withdraw delivers, judgeWithdraw_late other found committed]
    · have released : (s.delivered.pvs.release x.serial).lists = (s.pvs.release x.serial).lists := by
        rw [Store.release, Store.release, lists]
      refine ⟨s.delivered.pvs.release x.serial, ?_, fun t => ?_, rfl, fun c => ?_⟩
      · rw [exec_withdraw delivers, judgeWithdraw_ok other found pending]
      · exact released ▸ Store.release_lists named mem t
      · rw [Store.inEffect, released]
        exact Store.inEffect_release named mem pending c

/-! ## Committed segments (R23) -/

/-- The slots of a store are named apart, and it holds a committed slot `x`. -/
def Store.HoldsCommitted (x : Slot) (p : Store) : Prop := p.named ∧ x ∈ p.held ∧ x.state ≠ .pending

section Held

variable {x : Slot} {p : Store}

/-- A release of a PENDING slot leaves every committed one. -/
theorem Store.holdsCommitted_release (h : p.HoldsCommitted x) {y : Slot} (mem : y ∈ p.held) (pending : y.state = .pending) :
    (p.release y.serial).HoldsCommitted x := by
  obtain ⟨named, held, committed⟩ := h
  have stays : x.serial ≠ y.serial := fun same =>
    committed (by rw [eq_of_serial_eq named.1 held mem same, pending])
  refine ⟨Store.named_of_thins (Store.thins_release p y.serial) rfl named, ?_, committed⟩
  obtain ⟨t, listed⟩ := Store.mem_held.1 held
  refine Store.mem_held.2 ⟨t, ?_⟩
  rw [Store.release, PerTrack.get_of, mem_arrange, List.mem_filter]
  exact ⟨listed, by simpa using stays⟩

/-- An acceptance supersedes and evicts PENDING slots alone. -/
theorem Store.holdsCommitted_accept (h : p.HoldsCommitted x) (g : Segment) {evicted : Option Slot}
    (pending : ∀ y, evicted = some y → y ∈ p.held ∧ y.state = .pending) : (p.accept g evicted).HoldsCommitted x := by
  obtain ⟨named, held, committed⟩ := h
  refine ⟨Store.named_accept named g evicted, ?_, committed⟩
  obtain ⟨t, listed⟩ := Store.mem_held.1 held
  refine Store.mem_held.2 ⟨t, (p.mem_accept_list g evicted).2 (.inr ?_)⟩
  rw [Store.staying_eq, List.mem_filter, Slot.staysAt_iff, Slot.supersededBy_iff]
  refine ⟨listed, fun superseded => committed superseded.1, fun y evicts same => ?_⟩
  obtain ⟨mem, isPending⟩ := pending y evicts
  exact committed (by rw [eq_of_serial_eq named.1 held mem same, isPending])

end Held

/-- The command is one with which the host changes what is PENDING. -/
inductive Instr.ChangesPending : Instr → Prop where
  | preview (r : SegmentRecord) : ChangesPending (.preview r)
  | withdraw (tag : Half) : ChangesPending (.withdraw tag)

/-- A committed slot stays as it is at every PREVIEW and WITHDRAW (R23). -/
theorem State.holdsCommitted_keeps (x : Slot) : KeepsIn Instr.ChangesPending fun s => s.pvs.HoldsCommitted x where
  outer _ _ _ _ h := h
  resumes _ h _ _ := h
  setGroup _ _ a := nomatch a
  setLocks _ a := nomatch a
  writeVariant _ _ a := nomatch a
  start a := nomatch a
  standby a := nomatch a
  restart a := nomatch a
  motion _ a := nomatch a
  preview _ _ _ g _ h accepted := by
    obtain ⟨_, judged⟩ := State.judgeRecord_accepted_segment accepted
    obtain ⟨_, _, room⟩ := State.judgeSegment_accepted_cases judged
    refine Store.holdsCommitted_accept h g fun y evicts => ?_
    rcases room with ⟨_, none⟩ | ⟨z, some, candidate⟩
    · cases none.symm.trans evicts
    · obtain rfl : y = z := Option.some.inj (evicts.symm.trans some)
      obtain ⟨mem, pending, _⟩ := State.evictionCandidate_some candidate
      exact ⟨mem, pending⟩
  withdraw _ _ _ y h mem pending := by
    refine Store.holdsCommitted_release h mem (Decidable.not_not.1 fun committed => ?_)
    rw [SlotState.committed_iff.2 committed] at pending
    cases pending
  select _ a := nomatch a
  trimAhead _ _ a := nomatch a
  recheck _ a := nomatch a
  setReporting _ _ a := nomatch a
  clear _ _ a := nomatch a
  fullReset _ a := nomatch a
  frontPulse _ _ a := nomatch a
  rearPulse _ a := nomatch a
  standstill _ a := nomatch a
  updateInRun _ _ a := nomatch a
  updateOutsideRun _ _ a := nomatch a
  sample _ _ a := nomatch a
  trackingExpires _ a := nomatch a
  checkCompletes _ _ a := nomatch a
  trimCompletes _ _ a := nomatch a
  trimTimerExpires _ a := nomatch a
  silence a := nomatch a
  emptyMarker a := nomatch a

/-- Settles O35: a committed slot is neither superseded, evicted nor withdrawn, since its name is its own. -/
theorem committedSegmentsAreNeverDisturbed : Obligations.CommittedSegmentsAreNeverDisturbed := by
  intro c s t x stepped named mem committed host
  have changes : Instr.ChangesPending (takenAs c) := by
    rcases host with ⟨r, preview⟩ | ⟨tag, withdraw⟩
    · exact preview ▸ .preview r
    · exact withdraw ▸ .withdraw tag
  exact ((State.holdsCommitted_keeps x).exec changes ⟨named, mem, committed⟩ stepped).2.1

end Sys2Proof.Machine
end

section
/-! Every step keeps the store sound, and its lists in ascending order of start wherever their segments have one (R21, R22,
R43): each operation of the store keeps it, and so each change that a command makes. -/

namespace Sys2Proof.Machine

/-! ## What can happen to the store -/

@[simp] theorem State.acceptSwitch_pvs (s : State) (p : ProfileName) : (s.acceptSwitch p).pvs = s.pvs := by
  unfold State.acceptSwitch
  split <;> simp

/-- A property of the store is kept by each of the store's own operations. -/
structure Store.Keeps (Q : Store → Prop) : Prop where
  reset : Q Store.reset
  preview : ∀ p v, Q p → Q { p with preview := v }
  advance : ∀ p t v, Q p → Q (p.advance t v)
  flush : ∀ p t, Q p → Q (p.flush t)
  silenceFlush : ∀ p, Q p → Q p.silenceFlush
  present : ∀ p c supplied, Q p → Q (p.present c supplied)
  markOverride : ∀ p t serial, Q p → Q (p.markOverride t serial)
  release : ∀ p serial, Q p → Q (p.release serial)
  accept : ∀ (s : State) r g evicted, Q s.pvs → s.judgeRecord r = .accepted g evicted → Q (s.pvs.accept g evicted)

namespace Store.Keeps

variable {Q : Store → Prop} (k : Store.Keeps Q) {s : State}

include k

theorem enterSafe (h : Q s.pvs) : Q s.enterSafe.pvs := by
  rw [State.enterSafe_pvs]
  exact k.preview _ _ (k.flush _ _ (k.flush _ _ h))

theorem enterStandby (h : Q s.pvs) : Q s.enterStandby.pvs := by
  rw [State.enterStandby_pvs]
  exact k.preview _ _ (k.flush _ _ (k.flush _ _ h))

theorem runIfChecked (h : Q s.pvs) : Q s.runIfChecked.pvs := by
  unfold State.runIfChecked
  split
  · rw [State.enterRun_pvs]
    exact k.preview _ _ h
  · exact h

theorem escalate (h : Q s.pvs) : Q s.escalate.pvs := by
  unfold State.escalate
  split
  · exact k.enterSafe h
  · exact k.runIfChecked h

theorem enterFaulted (h : Q s.pvs) (c : Corner) (kind : FaultKind) (measured : Nat) :
    Q (s.enterFaulted c kind measured).pvs := k.escalate (by simpa using h)

theorem loseLock (h : Q s.pvs) (t : Track) (cause : LockCause) : Q (s.loseLock t cause).pvs := k.flush _ _ h

theorem giveDirection (h : Q s.pvs) (d : Direction) (t : Track) : Q (s.giveDirection d t).pvs := by
  simp only [State.giveDirection]
  split
  · exact h
  · split
    · exact h
    · exact k.loseLock (s := s.setTod t _) h t _
    · exact h
    · exact h

theorem takeFrontPulse (h : Q s.pvs) (t : Track) (time : Nat) : Q (s.takeFrontPulse t time).pvs := by
  by_cases forward : (s.tod.get t).direction = .forward
  · rw [State.takeFrontPulse_forward forward]
    have advanced {u : State} (h : Q u.pvs) : Q (u.handAdvance t).pvs := by
      rw [State.handAdvance_pvs]
      exact k.advance _ _ _ h
    have evaluated {u : State} (h : Q u.pvs) (reference : Option Nat) : Q (u.evaluateLock t reference).pvs := by
      rcases u.evaluateLock_cases t reference with ⟨o, e, _⟩ | ⟨_, e⟩
      · exact e ▸ h
      · exact e ▸ k.loseLock h t .slip
    exact evaluated (advanced (u := s.setTod t _) h) _
  · rw [State.takeFrontPulse_away forward]
    exact h

theorem takeRearPulse (h : Q s.pvs) (t : Track) : Q (s.takeRearPulse t).pvs := by
  simp only [State.takeRearPulse]
  split
  · split
    · exact k.loseLock h t .slip
    · exact h
  · exact h

theorem handOver (h : Q s.pvs) (c : Corner) (inEffect : Option Slot) (d : Demand) : Q (s.handOver c inEffect d).pvs := by
  unfold State.handOver
  split
  · simpa using h
  · split
    · simpa using k.markOverride _ _ _ h
    · simpa using h

theorem updateInRun (h : Q s.pvs) (c : Corner) (raw : Int) : Q (s.updateInRun c raw).pvs := by
  simp only [State.updateInRun, State.bookkeep_frame, State.tellQuiet_frame]
  have presented (supplied : Option (Int × Int)) : Q ((s.updateSensor c raw).pvs.present c supplied) :=
    k.present _ _ _ (by simpa using h)
  split
  · exact k.handOver (presented _) _ _ _
  · exact presented _

theorem sample (h : Q s.pvs) (c : Corner) (n : Nat) : Q (s.sample c n).pvs := by
  simp only [State.sample]
  split
  · exact k.enterFaulted (s := s.setVd c _) h c _ _
  · split <;> exact h

theorem trackingExpires (h : Q s.pvs) (c : Corner) : Q (s.trackingExpires c).pvs := by
  simp only [State.trackingExpires]
  split
  · exact k.enterFaulted h c _ _
  · exact h

theorem checkPassed (h : Q s.pvs) (c : Corner) (resistance : Nat) : Q (s.checkPassed c resistance).pvs := by
  unfold State.checkPassed
  cases s.mdc.mode with
  | starting => exact k.runIfChecked (by simpa using h)
  | run => simpa using h
  | config | safe | standby => exact h

theorem checkCompletes (h : Q s.pvs) (c : Corner) (resistance : Nat) : Q (s.checkCompletes c resistance).pvs := by
  unfold State.checkCompletes
  split
  · exact k.enterFaulted h c _ _
  · exact k.enterFaulted h c _ _
  · exact k.checkPassed h c resistance

theorem trimCompletes (h : Q s.pvs) (c : Corner) (t : Trim) (resistance : Nat) : Q (s.trimCompletes c t resistance).pvs := by
  unfold State.trimCompletes
  split
  · exact k.enterFaulted h c _ _
  · exact k.enterFaulted h c _ _
  · simpa using h

theorem emptyMarker (h : Q s.pvs) (m : Marker) : Q (s.emptyMarker m).pvs := by
  cases m with
  | fault c | mode | lock t | profile | condition c b => exact h
  | passage =>
    simp only [State.emptyMarker]
    split
    · exact h
    · exact k.release _ _ h

/-- A property that every operation of the store keeps is kept by each change that a command makes. -/
theorem keeps : Machine.Keeps fun s => Q s.pvs where
  outer _ _ _ _ h := h
  resumes s h _ _ := k.preview s.pvs .active h
  setGroup _ _ _ _ _ _ h _ _ _ := h
  setLocks _ _ _ _ h := h
  writeVariant _ _ _ _ h _ := h
  start _ _ h _ := by simpa using h
  standby _ _ h _ := k.enterStandby h
  restart _ _ _ := k.reset
  motion _ _ _ d t h := k.giveDirection h d t
  preview _ _ s g evicted h accepted := k.accept s _ g evicted h accepted
  withdraw _ _ _ x h _ _ := k.release _ x.serial h
  select _ _ _ _ h _ _ _ := by simpa using h
  trimAhead _ _ _ _ _ h _ _ := by simpa using h
  recheck _ _ _ _ h _ _ := by simpa using h
  setReporting _ _ _ _ _ _ h := h
  clear _ _ _ _ _ _ h := h
  fullReset _ _ _ _ := k.reset
  frontPulse t time _ _ h _ := k.takeFrontPulse h t time
  rearPulse t _ _ h _ := k.takeRearPulse h t
  standstill _ _ _ h _ := h
  updateInRun c raw _ _ h _ := k.updateInRun h c raw
  updateOutsideRun _ _ _ _ h _ := by simpa using h
  sample c n _ _ h := k.sample h c n
  trackingExpires c _ _ h := k.trackingExpires h c
  checkCompletes c r _ _ h _ := k.checkCompletes h c r
  trimCompletes c r _ _ t h _ _ := k.trimCompletes h c t r
  trimTimerExpires _ _ _ h _ := by simpa using h
  silence _ s h _ _ := k.preview _ .suspended (k.silenceFlush s.pvs h)
  emptyMarker _ _ m h := k.emptyMarker h m

end Store.Keeps

theorem Store.healthy_keeps : Store.Keeps Store.healthy where
  reset := Store.healthy_reset
  preview _ _ h := h
  advance _ t v h := Store.healthy_advance h t v
  flush _ t h := Store.healthy_flush h t
  silenceFlush _ h := Store.healthy_silenceFlush h
  present _ c supplied h := Store.healthy_present h c supplied
  markOverride _ t serial h := Store.healthy_markOverride h t serial
  release _ serial h := Store.healthy_release h serial
  accept _ _ _ _ h accepted := Store.healthy_accept h accepted

/-! ## The order of the lists (R21) -/

/-- `arrange` says how a list stands, in every case (R21; assumption log 21). -/
theorem arranges_iff {xs ys : List Slot} : arranges xs ys ↔ ys = arrange xs := by
  refine ⟨fun ⟨rises, stands⟩ => ?_, fun same => same ▸ arranges_arrange xs⟩
  by_cases rising : ascending (inStartOrder xs) = true
  · rw [rises _ (inStartOrder_perm xs) (ascending_iff.1 rising), arrange, if_pos rising]
  · have none (ws : List Slot) (perm : ws.Perm xs)
        (rises : ws.Pairwise fun x y => ahead y.segment.start x.segment.start = true) : False :=
      rising (ascending_iff.2 (inStartOrder_eq perm rises ▸ rises))
    rw [stands none, arrange, if_neg rising]

theorem Store.arranged_iff {p : Store} : p.arranged ↔ ∀ t, arrange (p.lists.get t) = p.lists.get t :=
  forall_congr' fun _ => arranges_iff.trans eq_comm

theorem arrange_arrange (xs : List Slot) : arrange (arrange xs) = arrange xs := by
  by_cases rising : ascending (inStartOrder xs) = true
  · rw [arrange_eq (inStartOrder_perm xs) (ascending_iff.1 rising)]
    exact arrange_eq (.refl _) (ascending_iff.1 rising)
  · have stands : arrange xs = xs := if_neg rising
    rw [stands, stands]

section Arranged

variable {p q : Store}

/-- One list is changed, and stands arranged. -/
theorem Store.arranged_of_set (h : p.arranged) {t : Track} {ys : List Slot} (lists : q.lists = p.lists.set t ys)
    (stands : arrange ys = ys) : q.arranged := by
  rw [Store.arranged_iff] at h ⊢
  intro u
  rw [lists, PerTrack.get_set]
  split
  · exact stands
  · exact h u

/-- Every list is put in order anew. -/
theorem Store.arranged_of_arrange {xs : Track → List Slot} (lists : ∀ t, q.lists.get t = arrange (xs t)) : q.arranged :=
  Store.arranged_iff.2 fun t => by rw [lists, arrange_arrange]

theorem Store.arranged_settleList (h : p.arranged) (t : Track) (xs : List Slot) : (p.settleList t xs).arranged := by
  refine Store.arranged_of_set h rfl ?_
  rw [settle, arrange_map (fun x => (Slot.takePlace_segment ..).1), arrange_arrange]

theorem Store.arranged_map (h : p.arranged) (t : Track) {f : Slot → Slot} (keeps : ∀ x, (f x).segment = x.segment) :
    Store.arranged { p with lists := p.lists.set t ((p.lists.get t).map f) } :=
  Store.arranged_of_set h rfl (by rw [arrange_map keeps, Store.arranged_iff.1 h t])

theorem Slot.present_segment (x : Slot) (r : Role) (supplied : Option (Int × Int)) :
    (x.present r supplied).segment = x.segment := by
  unfold Slot.present
  split
  · cases r <;> rfl
  · rfl

theorem Store.arranged_keeps : Store.Keeps Store.arranged where
  reset := Store.reset_arranged
  preview _ _ h := h
  advance _ t _ h := Store.arranged_settleList h t _
  flush _ t h := Store.arranged_settleList h t _
  silenceFlush _ _ := Store.arranged_of_arrange fun t => PerTrack.get_of _ t
  present _ c supplied h := Store.arranged_map h c.track fun x => x.present_segment c.role supplied
  markOverride _ t serial h := Store.arranged_map h t fun x => by split <;> rfl
  release _ _ _ := Store.arranged_of_arrange fun t => PerTrack.get_of _ t
  accept _ _ _ _ _ _ := Store.arranged_of_arrange fun t => PerTrack.get_of _ t

/-- Where the starts lie within half the range of positions, an arranged list of a sound store is in ascending order. -/
theorem Store.ordered_of_arranged (sound : p.sound) (arranged : p.arranged) (near : p.withinHalf) : p.ordered := by
  intro t
  obtain ⟨base, near⟩ := near t
  have rising := inStartOrder_ascending base near (Store.starts_ne_of_sound sound t)
  rw [← Store.arranged_iff.1 arranged t, arrange, if_pos (ascending_iff.2 rising)]
  exact rising

end Arranged

/-- Settles O36: a healthy store and arranged lists are each kept by every operation of the store, so by every step. -/
theorem storeStaysSound : Obligations.StoreStaysSound := by
  intro s t stepped healthy
  have kept : t.pvs.healthy := Keeps.step Store.healthy_keeps.keeps healthy stepped
  exact ⟨kept, fun arranged => Keeps.step Store.arranged_keeps.keeps arranged stepped,
    Store.ordered_of_arranged kept.1⟩

end Sys2Proof.Machine
end

section
/-! The release of SPENT segments (R42, R43, R56, R63, R67): what an advance and a flush do to the one track's list, the MISS
notices of an advance, and the places that the released segments take in the spent order. -/

namespace Sys2Proof.Machine

/-! ## An advance (R48, R56, R63) -/

theorem State.giveMiss_cc (s : State) (c d : Corner) (given : Bool) :
    (s.giveMiss c given).cc.get d =
      { s.cc.get d with missNotice := (s.cc.get d).missNotice || (decide (d = c) && given) } := by
  unfold State.giveMiss
  cases given with
  | false => simp
  | true =>
    by_cases same : d = c
    · subst same
      simp
    · simp [same]

/-- An advance leaves the ON state of some segment of the track for a role unseen (R63). -/
theorem Slot.any_missedAt_iff {xs : List Slot} {v : AdvanceView} {r : Role} :
    (xs.any fun x => x.missedAt v r) = true ↔
      ∃ x ∈ xs, ((x.advance v).role r).missed = true ∧ (x.role r).missed = false := by
  simp only [List.any_eq_true, Slot.missedAt, Bool.and_eq_true, Bool.not_eq_true']

theorem Corner.eq_corner_iff (c : Corner) (t : Track) (r : Role) : c = t.corner r ↔ c.track = t ∧ c.role = r := by
  cases c <;> cases t <;> cases r <;> decide

/-- The two corners of the track take the notices that the advance gives (R63, R64). -/
theorem State.handAdvance_cc (s : State) (t : Track) (c : Corner) :
    (s.handAdvance t).cc.get c =
      { s.cc.get c with
        missNotice := (s.cc.get c).missNotice
          || (decide (c.track = t) && (s.pvs.lists.get t).any fun x => x.missedAt (s.advanceView t) c.role) } := by
  simp only [State.handAdvance, State.giveMiss_cc, State.setPvs_cc]
  by_cases own : c.track = t
  · cases role : c.role <;> simp [Corner.eq_corner_iff, own, role]
  · simp [Corner.eq_corner_iff, own]

/-! ## The places in the spent order (R43) -/

theorem length_newlyWaiting (xs : List Slot) :
    (newlyWaiting xs).length = (xs.filter fun x => x.newlySpent && x.segment.report).length :=
  length_inStartOrder _

/-- A slot that waits has taken its place among the slots that the release leaves. -/
theorem mem_settle_of_newlyWaiting {x : Slot} {xs : List Slot} (n : Nat) (waits : x ∈ newlyWaiting xs) :
    { x with spentPlace := some (n + ((newlyWaiting xs).map Slot.serial).idxOf x.serial) } ∈ (settle n xs).1 := by
  obtain ⟨mem, fresh, report⟩ := mem_newlyWaiting.1 waits
  refine List.mem_map.2 ⟨x, mem_arrange.2 (List.mem_filter.2 ⟨mem, by rw [report, Bool.or_true]⟩), ?_⟩
  rw [Slot.takePlace, if_pos fresh]

/-- What the release leaves stands by its starts, whatever the places taken (R21). -/
theorem settle_arranges (n : Nat) (xs : List Slot) :
    arranges ((xs.filter fun x => !x.newlySpent || x.segment.report).map fun x => { x with spentPlace := none })
      ((settle n xs).1.map fun x => { x with spentPlace := none }) := by
  have placeless (x : Slot) :
      { x.takePlace n (newlyWaiting xs) with spentPlace := none } = ({ x with spentPlace := none } : Slot) := by
    unfold Slot.takePlace
    split <;> rfl
  rw [arranges_iff, arrange_map (f := fun x => { x with spentPlace := none }) (fun _ => rfl), settle, List.map_map]
  exact List.map_congr_left fun x _ => placeless x

/-- Settles O38: the advance and the flush are one release of SPENT slots each, whose places go by the order of starts. -/
theorem spentSegmentsAreReleasedByReportFlag : Obligations.SpentSegmentsAreReleasedByReportFlag := by
  refine ⟨fun s t => ?advance, fun p t => ?flush, fun n list => ?settle⟩
  case advance =>
    intro view v list missed
    have seen : s.advanceView t = v := rfl
    refine ⟨by rw [State.handAdvance_pvs]; rfl, fun c => ?_, by simp, by simp, by simp, by simp, by simp⟩
    have misses : ((s.pvs.lists.get t).any fun x => x.missedAt v c.role) = decide (missed c.role) := by
      rw [Bool.eq_iff_iff, decide_eq_true_iff, Slot.any_missedAt_iff]
    rw [State.handAdvance_cc, seen, misses]
  case flush => rfl
  case settle =>
    intro fresh waits
    have freshEq (x : Slot) : x.newlySpent = decide (fresh x) := by
      rw [Bool.eq_iff_iff, decide_eq_true_iff, Slot.newlySpent_iff]
    have waitsEq : (list.filter fun x => x.newlySpent && x.segment.report) = waits := by simp only [freshEq]; rfl
    have count : (newlyWaiting list).length = waits.length := by rw [length_newlyWaiting, waitsEq]
    have waiting {x : Slot} (mem : x ∈ waits) : x ∈ newlyWaiting list := by
      rw [newlyWaiting, waitsEq]
      exact mem_inStartOrder.2 mem
    refine ⟨congrArg (n + ·) count, ?_, fun x mem stale => ?_, fun x mem => ?_,
      fun ascending serials perm rising k x place => ?_⟩
    · simpa only [freshEq] using settle_arranges n list
    · exact mem_settle_of_not_newlySpent n mem (by simpa [freshEq] using stale)
    · exact ⟨_, count ▸ idxOf_newlyWaiting_lt (waiting mem), mem_settle_of_newlyWaiting n (waiting mem)⟩
    · have order : newlyWaiting list = ascending := by
        rw [newlyWaiting, waitsEq]
        exact inStartOrder_eq perm rising
      have distinct : (ascending.map Slot.serial).Nodup :=
        (perm.map _).nodup_iff.2 (serials.sublist (List.filter_sublist.map _))
      obtain ⟨short, rfl⟩ := List.getElem?_eq_some_iff.1 place
      have index : (ascending.map Slot.serial).idxOf ascending[k].serial = k := by
        have found := distinct.idxOf_getElem k (by rwa [List.length_map])
        rwa [List.getElem_map] at found
      have taken := mem_settle_of_newlyWaiting n (waiting (perm.mem_iff.1 (List.getElem_mem short)))
      rwa [order, index] at taken

end Sys2Proof.Machine
end
